-- ==== Sys2Proof/Word.lean ====
section
/-! DEFINITION. The machine's words, by the names the rules use for them. -/

namespace Sys2Proof

/-- A byte: one element of a byte region, one channel of a Pixel, one byte on a port (R60, R61, R34). -/
abbrev Byte := BitVec 8

/-- A command word, as the HOST hands it to CMD (R90). -/
abbrev Command := BitVec 64

/-- A 32-bit value: RESP_VAL (R21), a binary32 bit pattern (R29, R102), and the widest timing entry (R7: TW is at most 32). -/
abbrev Word32 := BitVec 32

end Sys2Proof
end

