-- ==== Sys2Proof/Config.lean ====
section
/-! DEFINITION. What one instance of the block fixes (R6, R7), the derived constants (R8), the predicate CFG_OK (R9), and the
free values: what the spec leaves open and no rule lets a claim depend on. -/

namespace Sys2Proof

/-- The agents that take steps (R12). -/
inductive Agent where
  | host      -- the application context: the commands
  | chain     -- the DMA transfer chain
  | refresh   -- the refresh interrupt's handler
  | env       -- the environment: the underrun strike
deriving DecidableEq, Repr, Inhabited

/-- The parameters of R7, in its order. One value is one instance of the block; no step changes it (R6, R37). -/
structure Config where
  /-- ROWS, 1..256. -/
  rows : Nat
  /-- COLS, 1..256. -/
  cols : Nat
  /-- BIT_DEPTH, 1..8; the D of R8. -/
  bitDepth : Nat
  /-- BPP, exactly 3. -/
  bpp : Nat
  /-- PAGES, exactly 1 (R211, conflict C1). -/
  pages : Nat
  /-- ADDR_REPEAT, 1..255. -/
  addrRepeat : Nat
  /-- R_POS, the red line's position in an output byte. -/
  rPos : Nat
  /-- G_POS. -/
  gPos : Nat
  /-- B_POS. -/
  bPos : Nat
  /-- CLK_POS. -/
  clkPos : Nat
  /-- IDLE_BITS, the four bits that carry no line. -/
  idleBits : Byte
  /-- COL_AT as the list COL_AT(0), COL_AT(1), .. : a permutation of 0..COLS-1. -/
  colOrder : List Nat
  /-- ROW_CODE as the list ROW_CODE(0), ROW_CODE(1), .. : ROWS distinct bytes. -/
  rowCodes : List Byte
  /-- TW, the width of a timing entry, 8..32. -/
  tw : Nat
  /-- T_UNIT, ticks of the bit-plane 0 slot. -/
  tUnit : Nat
  /-- BRIGHT_RESET, a binary32 pattern of a value in [0, 1]. -/
  brightReset : Word32
  /-- CAP_GRID, bytes. -/
  capGrid : Nat
  /-- CAP_BS, bytes of each bitstream region. -/
  capBs : Nat
  /-- CAP_ADDR, bytes. -/
  capAddr : Nat
  /-- CAP_TT, entries of each timing region. -/
  capTt : Nat
deriving DecidableEq, Repr

/-- REF, the reference configuration of R7. -/
def Config.ref : Config where
  rows := 8
  cols := 8
  bitDepth := 8
  bpp := 3
  pages := 1
  addrRepeat := 2
  rPos := 0
  gPos := 1
  bPos := 2
  clkPos := 3
  idleBits := 0x00#8
  colOrder := [0, 1, 2, 3, 4, 5, 6, 7]
  rowCodes := [0#8, 1#8, 2#8, 3#8, 4#8, 5#8, 6#8, 7#8]
  tw := 16
  tUnit := 256
  brightReset := 0x3F800000#32
  capGrid := 192
  capBs := 1024
  capAddr := 128
  capTt := 64

/-! ### Derived constants (R8) -/

/-- NSF: sub-frames per scan cycle (R8). -/
def Config.nsf (c : Config) : Nat := c.rows * c.bitDepth

/-- GRID_BYTES = GRID_PIX * BPP (R8). -/
def Config.gridBytes (c : Config) : Nat := c.rows * c.cols * c.bpp

/-- SLICE: bytes of one (row, plane) slice (R8). -/
def Config.slice (c : Config) : Nat := c.cols * 2

/-- BS_BYTES (R8). -/
def Config.bsBytes (c : Config) : Nat := c.rows * c.bitDepth * c.cols * 2 * c.pages

/-- ADDR_BYTES (R8). -/
def Config.addrBytes (c : Config) : Nat := c.bitDepth * c.rows * c.addrRepeat

/-- TT_ENTRIES (R8). -/
def Config.ttEntries (c : Config) : Nat := c.bitDepth * c.rows

/-- ROW_SLICE: ticks of one row (R8). -/
def Config.rowSlice (c : Config) : Nat := c.tUnit * (2 ^ c.bitDepth - 1)

/-- CLK_MASK = 1 << CLK_POS (R8). -/
def Config.clkMask (c : Config) : Byte := 1#8 <<< c.clkPos

/-- row(sf) = sf div D (R8). -/
def Config.rowOf (c : Config) (sf : Nat) : Nat := sf / c.bitDepth

/-- plane(sf) = sf mod D (R8). -/
def Config.planeOf (c : Config) (sf : Nat) : Nat := sf % c.bitDepth

/-- COL_AT(p) (R7, R153). -/
def Config.colAt (c : Config) (p : Nat) : Nat := c.colOrder.getD p 0

/-- ROW_CODE(r) (R7, R99). -/
def Config.rowCode (c : Config) (r : Nat) : Byte := c.rowCodes.getD r 0#8

/-- Bytes of one timing entry: TW/8 (R32, R66), rounded up where TW is no multiple of 8. DESIGN CHOICE (log 7): safe, no step
views a timing region by the byte. -/
def Config.entryBytes (c : Config) : Nat := (c.tw + 7) / 8

/-! ### CFG_OK (R9) -/

/-- Every parameter is in the legal range of R7. BRIGHT_RESET's range is read as the patterns of +0.0 .. 1.0, the ones R29
allows BRIGHT to hold. DEDUCED (log 15): safe. -/
abbrev Config.InRange (c : Config) : Prop :=
  (1 ≤ c.rows ∧ c.rows ≤ 256) ∧ (1 ≤ c.cols ∧ c.cols ≤ 256) ∧ (1 ≤ c.bitDepth ∧ c.bitDepth ≤ 8) ∧
  c.bpp = 3 ∧ c.pages = 1 ∧ (1 ≤ c.addrRepeat ∧ c.addrRepeat ≤ 255) ∧
  (c.rPos < 8 ∧ c.gPos < 8 ∧ c.bPos < 8 ∧ c.clkPos < 8) ∧ [c.rPos, c.gPos, c.bPos, c.clkPos].Nodup ∧
  (c.idleBits.getLsbD c.rPos = false ∧ c.idleBits.getLsbD c.gPos = false ∧
    c.idleBits.getLsbD c.bPos = false ∧ c.idleBits.getLsbD c.clkPos = false) ∧
  c.colOrder.Perm (List.range c.cols) ∧
  (c.rowCodes.length = c.rows ∧ c.rowCodes.Nodup) ∧
  (8 ≤ c.tw ∧ c.tw ≤ 32) ∧ (1 ≤ c.tUnit ∧ c.tUnit ≤ (2 ^ c.tw - 1) / 2 ^ (c.bitDepth - 1)) ∧
  c.brightReset.toNat ≤ 0x3F800000

/-- The capacities hold what the geometry needs, and the longest period fits an entry (R9). -/
abbrev Config.Fits (c : Config) : Prop :=
  c.gridBytes ≤ c.capGrid ∧ c.bsBytes ≤ c.capBs ∧ c.addrBytes ≤ c.capAddr ∧ c.ttEntries ≤ c.capTt ∧
  c.tUnit * 2 ^ (c.bitDepth - 1) ≤ 2 ^ c.tw - 1

/-- CFG_OK (R9). -/
abbrev Config.Ok (c : Config) : Prop := c.InRange ∧ c.Fits

/-! ### Free values: nothing constrains them, and no statement may rest on one -/

/-- The agent whose turn it is when no turn is fixed any more: R12 gives no schedule. A free value, applied to the count of
free values drawn (log 1). -/
opaque Config.freeAgent : Nat → Agent

/-- What an output latch holds while the chain is in an underrun: R244 leaves the outputs unspecified. A free value (log 12). -/
opaque Config.freeOutput : Nat → Word32

/-- floor(value(b) * T_UNIT) for a pattern b that stands for no number in [0, 1]: R181 speaks only of stored brightnesses, and
no reachable state holds another (R29). A free value (log 14). -/
opaque Config.freeCount : Word32 → Nat

end Sys2Proof
end

