-- ==== Sys2Proof/Machine/State.lean ====
section
/-! DEFINITION. Every piece of state of R20, the model's own fields beside it, the ways a step can stop, and reset (R38). -/

namespace Sys2Proof.Machine

/-! ### The names state is made of -/

/-- The six regions (R35, R60): names, not addresses (R70). -/
inductive Region where
  | grid         -- the Pixel Grid
  | bs0          -- Bitstream Buffer 0
  | bs1          -- Bitstream Buffer 1
  | addrTbl      -- the Address Table
  | periodTbl    -- the Timing Table's periods
  | compareTbl   -- the Timing Table's compare values
deriving DecidableEq, Repr

/-- The four outputs a transfer stream writes (R32, R33, R34). -/
inductive Port where
  | addrPort
  | tmrPeriod
  | tmrCompare
  | dataPort
deriving DecidableEq, Repr

/-- The four transfer descriptors, DESC[0] to DESC[3] (R32). -/
inductive DescName where
  | descAddr
  | descPeriod
  | descCompare
  | descData
deriving DecidableEq, Repr

/-- A transfer descriptor (R32): a record of named fields, with no binary encoding (R103). -/
structure Descriptor where
  /-- SRC: the region the stream reads, from its offset 0. -/
  src : Region
  /-- DST: the output the stream writes. -/
  dst : Port
  /-- UNIT: bytes per transferred unit. -/
  unitBytes : Nat
  /-- MINOR: units moved per sub-frame. -/
  minor : Nat
  /-- MAJOR: sub-frames per scan cycle. -/
  major : Nat
  /-- LINK: the descriptor triggered when this one's MINOR units are done. -/
  link : DescName
deriving DecidableEq, Repr

/-- DESC[0..3], each under its name (R32). -/
structure Descriptors where
  addr : Descriptor
  period : Descriptor
  compare : Descriptor
  data : Descriptor
deriving DecidableEq, Repr

/-- RUNSTATE (R28). -/
inductive RunState where
  | idle
  | running
  | cfgFault
  | underrunFault
deriving DecidableEq, Repr

/-- PHASE (R23): which stream of the sub-frame is next; `w`, all four done, waiting to advance. -/
inductive Phase where
  | a
  | p
  | c
  | d
  | w
deriving DecidableEq, Repr

/-- HOSTPOS (R39): where a multi-step command stands. -/
inductive HostPos where
  /-- NONE: no command in flight, or a single-step one. -/
  | none
  /-- SHOW_1: after the first step of SHOW. -/
  | show1
  /-- SHOW_2: after the second. -/
  | show2
  /-- BRI(i): after the clamp step of SETBRI and i table writes. -/
  | bri (i : Nat)
deriving DecidableEq, Repr

/-- The output events (R15). A TW-bit value is held in 32 bits (log 8). -/
inductive Event where
  | addr (v : Byte)
  | period (v : Word32)
  | compare (v : Word32)
  | data (v : Byte)
  | irq
  | ack (swapped : Bool)
  | resp (err : Byte) (val : Word32)
deriving DecidableEq, Repr

/-- The causes a command reports, with RESP_ERR's codes in `Cause.code` (R96, R240). -/
inductive Cause where
  | ok
  | cfgErr
  | rangeErr
  | cmdErr
deriving DecidableEq, Repr

/-- One region's contents: (offset, byte) pairs in the canonical form of `Memory.wf`. -/
abbrev Memory := List Host.Cell

/-- The six regions (R35). -/
structure Regions where
  grid : Memory
  bs0 : Memory
  bs1 : Memory
  addrTbl : Memory
  periodTbl : Memory
  compareTbl : Memory
deriving DecidableEq, Repr

/-! ### The state (R20) -/

/-- The complete state of the block (R20), and the model's own fields, which are inputs of the block's step relation (R37) or
its observer's trace (R15). -/
structure State where
  /-- CMD, the command in flight (R21). -/
  cmd : Command
  /-- RESP_VAL (R21). -/
  respVal : Word32
  /-- RESP_ERR (R21). -/
  respErr : Byte
  /-- RUNSTATE (R28). -/
  runState : RunState
  /-- SF, the current sub-frame (R23). -/
  sf : Nat
  /-- PHASE (R23). -/
  phase : Phase
  /-- IDX, units already moved in the current phase (R23). -/
  idx : Nat
  /-- swap_pending (R25). -/
  swapPending : Bool
  /-- ACTIVE (R26): false is 0, BS0. -/
  active : Bool
  /-- irq_pending (R27), the level of the interrupt output. -/
  irqPending : Bool
  /-- BRIGHT, a binary32 pattern (R29). -/
  bright : Word32
  /-- C0, a TW-bit register (R30), held in 32 bits (log 8). -/
  c0 : Word32
  /-- ENC_TARGET (R31): false is 0, BS0. -/
  encTarget : Bool
  /-- HOSTPOS (R39). -/
  hostPos : HostPos
  /-- DESC[0..3] (R32). -/
  desc : Descriptors
  /-- TMR_PERIOD, a TW-bit register (R33), held in 32 bits (log 8). -/
  tmrPeriod : Word32
  /-- TMR_COMPARE, a TW-bit register (R33), held in 32 bits (log 8). -/
  tmrCompare : Word32
  /-- ADDR_PORT (R34). -/
  addrPort : Byte
  /-- DATA_PORT (R34). -/
  dataPort : Byte
  /-- GRID, BS0, BS1, ADDR_TBL, PERIOD_TBL, COMPARE_TBL (R35). -/
  mem : Regions
  /-- The model's own: the instance's parameters (R7), which no step writes (R37; log 4). -/
  cfg : Config
  /-- The model's own: the commands the HOST will issue, first first (R37; log 3). -/
  prog : List Command
  /-- The model's own: whose turn it is, first first, as far as it is fixed (R37; log 1). -/
  sched : List Agent
  /-- The model's own: how many free values have been drawn (log 1, log 12). -/
  drawn : Nat
  /-- The model's own: the events emitted, oldest first (R15; log 10). -/
  trace : List Event
deriving DecidableEq, Repr

/-! ### How a step can stop -/

/-- Faults of the model. The spec's own error causes are responses, not faults (R240, R241). -/
inductive Fault where
  /-- A region access at an offset the region does not have (R60, R67). Raised by the named memory operations; cannot arise
  where CFG_OK and the state's invariant hold. Safe: the model stops where the spec gives no meaning. -/
  | outsideRegion (r : Region) (off : Nat)
  /-- A read of a byte nothing has written, in a region the spec gives no reset contents (R38, U7). Raised by the CHAIN's
  fetches; cannot arise where the state's invariant holds. Safe (log 6). -/
  | unwrittenByte (r : Region) (off : Nat)
deriving DecidableEq, Repr

/-- Refusals of the model. -/
inductive Refusal where
  /-- An instruction that has no meaning yet; exec's arms alone raise it. Safe. No arm does in this model. -/
  | notModelled (mnemonic : String)
  /-- SHOW or SETBRI on a configuration that is not CFG_OK, to which the spec gives no meaning (R9, U9). Raised by those two
  meanings. Safe (log 5). -/
  | configNotOk
deriving DecidableEq, Repr

/-- What a step of this machine answers. -/
abbrev Result := Host.Outcome State Fault Refusal

/-! ### Reset (R38) -/

/-- A descriptor before any BEGIN: the spec gives its fields no value. DESIGN CHOICE (log 9): unsafe. -/
def Descriptor.unset : Descriptor where
  src := .grid
  dst := .addrPort
  unitBytes := 0
  minor := 0
  major := 0
  link := .descAddr

/-- The block of configuration c right after reset (R38, R270). GRID lists nothing and so is all zero; the other regions list
nothing and so hold no value yet (log 6). CMD, C0, ENC_TARGET, DESC, the ports and the timer registers are unspecified in R38;
their values here are DESIGN CHOICE (log 9): unsafe. -/
def State.resetOf (c : Config) : State where
  cmd := 0#64
  respVal := 0#32
  respErr := 0#8
  runState := .idle
  sf := 0
  phase := .a
  idx := 0
  swapPending := false
  active := false
  irqPending := false
  bright := c.brightReset
  c0 := 0#32
  encTarget := false
  hostPos := .none
  desc := ⟨.unset, .unset, .unset, .unset⟩
  tmrPeriod := 0#32
  tmrCompare := 0#32
  addrPort := 0#8
  dataPort := 0#8
  mem := ⟨[], [], [], [], [], []⟩
  cfg := c
  prog := []
  sched := []
  drawn := 0
  trace := []

/-- The machine right after reset, in the reference configuration REF (R7, R38). -/
def State.reset : State := State.resetOf .ref

end Sys2Proof.Machine
end

