-- ==== Sys2Proof/Machine/Ops.lean ====
section
/-! DEFINITION. The shared operations: reading and writing regions (R60, R66 to R68), responding to a command and raising a
cause (R11, R95, R96, R240, R241), emitting events (R15), raising and ending the refresh interrupt (R206, R245, R249). -/

namespace Sys2Proof.Machine

/-! ### One region's contents -/

/-- What an offset that is not listed reads as: GRID is all zero at reset; the other regions have no value until they are
written (R38; log 6). -/
def Region.unlisted (r : Region) : Option Byte :=
  match r with
  | .grid => some 0#8
  | .bs0 => none
  | .bs1 => none
  | .addrTbl => none
  | .periodTbl => none
  | .compareTbl => none

/-- The byte at an offset; d is what an unlisted offset reads as. -/
def Memory.read (d : Option Byte) (m : Memory) (off : Nat) : Option Byte :=
  match m with
  | [] => d
  | (k, v) :: rest => if k = off then some v else Memory.read d rest off

/-- Store a byte, keeping the canonical form: a byte equal to what an unlisted offset reads as is not listed. -/
def Memory.write (d : Option Byte) (m : Memory) (off : Nat) (b : Byte) : Memory :=
  match m with
  | [] => if d = some b then [] else [(off, b)]
  | (k, v) :: rest =>
    if off < k then (if d = some b then (k, v) :: rest else (off, b) :: (k, v) :: rest)
    else if off = k then (if d = some b then rest else (off, b) :: rest)
    else (k, v) :: Memory.write d rest off b

/-- Offsets 0 .. n-1 holding f, every other offset as if never written. -/
def Memory.fill (d : Option Byte) (n : Nat) (f : Nat → Byte) : Memory :=
  (List.range n).filterMap fun off => if d = some (f off) then none else some (off, f off)

/-- The canonical form from offset lo up: offsets strictly rising and below n, no entry equal to what an unlisted offset
reads as. -/
def Memory.wfFrom (d : Option Byte) (n lo : Nat) (m : Memory) : Bool :=
  match m with
  | [] => true
  | (k, v) :: rest => lo ≤ k && k < n && d != some v && Memory.wfFrom d n (k + 1) rest

/-- The canonical form of the contents of a region of n bytes: equal contents are equal lists. -/
def Memory.wf (d : Option Byte) (n : Nat) (m : Memory) : Bool := Memory.wfFrom d n 0 m

/-- count bytes from base up, as one number, the low byte first (R66). -/
def Memory.loadLE (d : Option Byte) (m : Memory) (base count : Nat) : Option Nat :=
  match count with
  | 0 => some 0
  | n + 1 =>
    match Memory.read d m base, Memory.loadLE d m (base + 1) n with
    | some b, some hi => some (b.toNat + 256 * hi)
    | _, _ => none

/-- Store the low count bytes of v from base up, the low byte first (R66). -/
def Memory.storeLE (d : Option Byte) (m : Memory) (base count v : Nat) : Memory :=
  match count with
  | 0 => m
  | n + 1 => Memory.storeLE d (Memory.write d m base (BitVec.ofNat 8 v)) (base + 1) n (v / 256)

/-! ### The six regions -/

/-- The region BS[a] (R11). -/
def Region.bs (a : Bool) : Region :=
  match a with
  | false => .bs0
  | true => .bs1

/-- A region's contents. -/
def Regions.get (m : Regions) (r : Region) : Memory :=
  match r with
  | .grid => m.grid
  | .bs0 => m.bs0
  | .bs1 => m.bs1
  | .addrTbl => m.addrTbl
  | .periodTbl => m.periodTbl
  | .compareTbl => m.compareTbl

/-- The regions with one region's contents replaced. -/
def Regions.set (m : Regions) (r : Region) (c : Memory) : Regions :=
  match r with
  | .grid => { m with grid := c }
  | .bs0 => { m with bs0 := c }
  | .bs1 => { m with bs1 := c }
  | .addrTbl => { m with addrTbl := c }
  | .periodTbl => { m with periodTbl := c }
  | .compareTbl => { m with compareTbl := c }

/-- How many bytes a region has: what the geometry needs (R60), as far as the region's capacity goes (R7). Where CFG_OK holds
the capacity is no bound (R9). Where it does not, that a region ends at the lesser of the two is a DESIGN CHOICE (log 5), safe:
R9 and U9 leave it open. With BPP below 3, GRID then ends at GRID_BYTES, before the last of the three bytes a pixel that R131
writes, however large CAP_GRID is. -/
def regionBytes (c : Config) (r : Region) : Nat :=
  match r with
  | .grid => min c.gridBytes c.capGrid
  | .bs0 => min c.bsBytes c.capBs
  | .bs1 => min c.bsBytes c.capBs
  | .addrTbl => min c.addrBytes c.capAddr
  | .periodTbl => min c.ttEntries c.capTt * c.entryBytes
  | .compareTbl => min c.ttEntries c.capTt * c.entryBytes

/-- One byte of a region as the model reads it: none where nothing has been written. -/
def State.byteAt (s : State) (r : Region) (off : Nat) : Option Byte := Memory.read r.unlisted (s.mem.get r) off

/-- One whole timing entry as the model reads it (R65, R66). -/
def State.entryAt (s : State) (r : Region) (i : Nat) : Option Nat :=
  Memory.loadLE r.unlisted (s.mem.get r) (i * s.cfg.entryBytes) s.cfg.entryBytes

/-- The state with a region's contents replaced. -/
def State.setRegion (s : State) (r : Region) (m : Memory) : State := { s with mem := s.mem.set r m }

/-- The low TW bits of a number, as a timing entry or a timer register holds it (R10, R65; log 8). -/
def truncEntry (c : Config) (v : Nat) : Word32 := BitVec.ofNat 32 (v % 2 ^ c.tw)

/-- MemRead(REGION:off, 1) (R11, R67). -/
def readByte (r : Region) (off : Nat) (s : State) : Except Fault Byte :=
  if off < regionBytes s.cfg r then
    match s.byteAt r off with
    | some b => .ok b
    | none => .error (.unwrittenByte r off)
  else .error (.outsideRegion r off)

/-- MemWrite(REGION:off, 1, b) (R11, R67). -/
def writeByte (r : Region) (off : Nat) (b : Byte) (s : State) : Except Fault State :=
  if off < regionBytes s.cfg r then
    .ok (s.setRegion r (Memory.write r.unlisted (s.mem.get r) off b))
  else .error (.outsideRegion r off)

/-- MemRead of entry i of a timing region, whole (R11, R67, R68). -/
def readEntry (r : Region) (i : Nat) (s : State) : Except Fault Word32 :=
  if (i + 1) * s.cfg.entryBytes ≤ regionBytes s.cfg r then
    match s.entryAt r i with
    | some v => .ok (BitVec.ofNat 32 v)
    | none => .error (.unwrittenByte r (i * s.cfg.entryBytes))
  else .error (.outsideRegion r (i * s.cfg.entryBytes))

/-- MemWrite of entry i of a timing region, whole (R11, R67, R68). -/
def writeEntry (r : Region) (i v : Nat) (s : State) : Except Fault State :=
  if (i + 1) * s.cfg.entryBytes ≤ regionBytes s.cfg r then
    .ok (s.setRegion r (Memory.storeLE r.unlisted (s.mem.get r) (i * s.cfg.entryBytes) s.cfg.entryBytes
      (truncEntry s.cfg v).toNat))
  else .error (.outsideRegion r (i * s.cfg.entryBytes))

/-- The byte at an offset of a timing region whose entries are f 0, f 1, .. (R65, R66). -/
def entryByte (c : Config) (f : Nat → Nat) (off : Nat) : Byte :=
  BitVec.ofNat 8 ((truncEntry c (f (off / c.entryBytes))).toNat / 256 ^ (off % c.entryBytes))

/-- Write a byte region whole, n bytes. -/
def fillBytes (r : Region) (n : Nat) (f : Nat → Byte) (s : State) : State :=
  s.setRegion r (Memory.fill r.unlisted n f)

/-- Write a timing region whole, TT_ENTRIES entries (R65). -/
def fillEntries (r : Region) (f : Nat → Nat) (s : State) : State :=
  fillBytes r (s.cfg.ttEntries * s.cfg.entryBytes) (entryByte s.cfg f) s

/-- Go on with what an access gave, or stop with its fault. -/
def attempt {α : Type} (e : Except Fault α) (k : α → Result) : Result :=
  match e with
  | .ok a => k a
  | .error f => .fault f

/-! ### Events and responses -/

/-- `emit Ev(v)` (R11, R15). -/
def emit (e : Event) (s : State) : State := { s with trace := s.trace ++ [e] }

/-- `respond(err, val)` (R11, R95): the response registers, the Resp event, and the command in flight is complete. -/
def respond (err : Byte) (val : Word32) (s : State) : State :=
  emit (.resp err val) { s with respErr := err, respVal := val, hostPos := .none }

/-- RESP_ERR's code of a cause (R96). -/
def Cause.code (c : Cause) : Byte :=
  match c with
  | .ok => 0#8
  | .cfgErr => 1#8
  | .rangeErr => 2#8
  | .cmdErr => 3#8

/-! ### The exceptional events -/

/-- `raise <Cause>` (R11, R241): respond(code, 0) and no other state change. -/
def raise (c : Cause) (s : State) : State := respond c.code 0#32 s

/-- Raising the refresh interrupt (R206, R245). -/
def raiseIrq (s : State) : State := emit .irq { s with irqPending := true }

/-- The end of the refresh interrupt (R246, R249): the pending bit cleared, the handshake acknowledged. -/
def ackIrq (swapped : Bool) (s : State) : State := emit (.ack swapped) { s with irqPending := false }

end Sys2Proof.Machine
end

