-- ==== Sys2Proof/Machine/Chain.lean ====
section
/-! DEFINITION. The CHAIN agent's steps (R201 to R208): each fetches one unit, drives it on its output and emits its event. -/

namespace Sys2Proof.Machine

/-- IDX <- IDX + 1, and the phase change of R202 when it reaches ADDR_REPEAT. -/
def afterAddr (s : State) : State :=
  if s.idx + 1 = s.cfg.addrRepeat then { s with phase := .p, idx := 0 } else { s with idx := s.idx + 1 }

/-- XA, one address byte (R202). -/
def stepXA (s : State) : Result :=
  attempt (readByte .addrTbl (s.sf * s.cfg.addrRepeat + s.idx) s) fun v =>
    .next (afterAddr (emit (.addr v) { s with addrPort := v }))

/-- XP, the period (R203). -/
def stepXP (s : State) : Result :=
  attempt (readEntry .periodTbl s.sf s) fun v =>
    .next (emit (.period v) { s with tmrPeriod := v, phase := .c })

/-- XC, the compare value (R204). -/
def stepXC (s : State) : Result :=
  attempt (readEntry .compareTbl s.sf s) fun v =>
    .next (emit (.compare v) { s with tmrCompare := v, phase := .d, idx := 0 })

/-- IDX <- IDX + 1, and the phase change of R205 when it reaches SLICE. IDX is SLICE while PHASE = W (log 20). -/
def afterData (s : State) : State :=
  if s.idx + 1 = s.cfg.slice then { s with phase := .w, idx := s.idx + 1 } else { s with idx := s.idx + 1 }

/-- XD, one byte of the active Bitstream Buffer (R205). -/
def stepXD (s : State) : Result :=
  attempt (readByte (Region.bs s.active) (s.sf * s.cfg.slice + s.idx) s) fun v =>
    .next (afterData (emit (.data v) { s with dataPort := v }))

/-- ADV, the advance (R206): at the wrap the refresh interrupt is raised. -/
def stepADV (s : State) : State :=
  let t := if s.sf + 1 = s.cfg.nsf then raiseIrq { s with sf := 0 } else { s with sf := s.sf + 1 }
  { t with phase := .a, idx := 0 }

/-- The hold at the cycle boundary (R207). -/
def hold (s : State) : Bool := s.irqPending && s.sf == 0 && s.phase == .a && s.idx == 0

/-- The CHAIN's one next step in the state's phase (R208), the hold aside. -/
def chainMove (s : State) : Result :=
  match s.phase with
  | .a => stepXA s
  | .p => stepXP s
  | .c => stepXC s
  | .d => stepXD s
  | .w => .next (stepADV s)

/-- What becomes of the four output latches while the chain is in an underrun: free values (R244, U12; log 12). -/
def loseOutputs (s : State) : State :=
  { s with
    tmrPeriod := truncEntry s.cfg (Config.freeOutput s.drawn).toNat
    tmrCompare := truncEntry s.cfg (Config.freeOutput (s.drawn + 1)).toNat
    addrPort := (Config.freeOutput (s.drawn + 2)).setWidth 8
    dataPort := (Config.freeOutput (s.drawn + 3)).setWidth 8
    drawn := s.drawn + 4 }

/-- A turn of the CHAIN (R201). While RUNNING, its next step unless it is held; in IDLE and CFG_FAULT it has none; in
UNDERRUN_FAULT its behaviour is not defined: no event, the outputs unspecified (R244; log 12). -/
def chainTurn (s : State) : Result :=
  match s.runState with
  | .running => if hold s then .next s else chainMove s
  | .underrunFault => .next (loseOutputs s)
  | .idle => .next s
  | .cfgFault => .next s

/-- A turn of ENV: the underrun strike, enabled while RUNNING (R244). -/
def envTurn (s : State) : Result :=
  match s.runState with
  | .running => .next (loseOutputs { s with runState := .underrunFault })
  | .underrunFault => .next s
  | .idle => .next s
  | .cfgFault => .next s

end Sys2Proof.Machine
end

