-- ==== Sys2Proof/Syntax.lean ====
section
/-! DEFINITION. The commands of R92, one constructor per row of spec/opcode_table.json, and their text form (R104, R105). -/

namespace Sys2Proof

/-- A command with its operands (R91, R92, R93). Coordinates and the grid offset are unsigned numbers, compared as such with
COLS, ROWS and GRID_BYTES (R93); channels, a Pixel and a binary32 are bit patterns. `beginCmd` and `showCmd` are BEGIN and SHOW
(`show` is a word of Lean's). -/
inductive Instr where
  /-- BEGIN, format N (R230). -/
  | beginCmd
  /-- SETPIX col, row, r, g, b, format C (R131). -/
  | setpix (col row : Nat) (r g b : Byte)
  /-- SETPIXP col, row, pix, format P (R132). -/
  | setpixp (col row : Nat) (pix : BitVec 24)
  /-- GETPIX, format N (R133). -/
  | getpix
  /-- LDG off, format G (R134). -/
  | ldg (off : Nat)
  /-- STG off, val8, format G (R135). -/
  | stg (off : Nat) (val8 : Byte)
  /-- SHOW, format N (R155). -/
  | showCmd
  /-- BUFWAIT, format N (R136). -/
  | bufwait
  /-- SETBRI f32, format F (R186). -/
  | setbri (f32 : Word32)
  /-- GETBRI, format N (R137). -/
  | getbri
deriving DecidableEq, Repr

/-- The mnemonic of R92. -/
def Instr.mnemonic : Instr → String
  | .beginCmd => "BEGIN"
  | .setpix _ _ _ _ _ => "SETPIX"
  | .setpixp _ _ _ => "SETPIXP"
  | .getpix => "GETPIX"
  | .ldg _ => "LDG"
  | .stg _ _ => "STG"
  | .showCmd => "SHOW"
  | .bufwait => "BUFWAIT"
  | .setbri _ => "SETBRI"
  | .getbri => "GETBRI"

/-- The source's API call a command stands for (R105). -/
def Instr.apiCall : Instr → String
  | .beginCmd => "begin()"
  | .setpix _ _ _ _ _ => "setPixelColor(column, row, r, g, b)"
  | .setpixp _ _ _ => "setPixelColor(column, row, Pixel)"
  | .getpix => "getPixels()"
  | .ldg _ => "a read through getPixels()"
  | .stg _ _ => "a write through getPixels()"
  | .showCmd => "show()"
  | .bufwait => "bufferWaiting()"
  | .setbri _ => "setBrightness(float)"
  | .getbri => "getBrightness()"

/-- A number as `0x` and hexadecimal digits (R104). -/
def hexText (n : Nat) : String := "0x" ++ String.ofList (Nat.toDigits 16 n)

/-- A command as one line of the assembler syntax of R104: mnemonic in capitals, operands separated by commas, a brightness in
the `bits:` form. -/
def Instr.text (i : Instr) : String :=
  match i with
  | .setpix col row r g b =>
    i.mnemonic ++ " " ++ String.intercalate ", " ([col, row, r.toNat, g.toNat, b.toNat].map toString)
  | .setpixp col row pix =>
    i.mnemonic ++ " " ++ String.intercalate ", " [toString col, toString row, hexText pix.toNat]
  | .ldg off => i.mnemonic ++ " " ++ toString off
  | .stg off val8 => i.mnemonic ++ " " ++ String.intercalate ", " [toString off, toString val8.toNat]
  | .setbri f32 => i.mnemonic ++ " bits:" ++ hexText f32.toNat
  | .beginCmd => i.mnemonic
  | .getpix => i.mnemonic
  | .showCmd => i.mnemonic
  | .bufwait => i.mnemonic
  | .getbri => i.mnemonic

end Sys2Proof
end

