-- ==== Sys2Proof/WellFormed.lean ====
section
/-! DEFINITION. When a command's operands fit the fields of its format (R91, R93). -/

namespace Sys2Proof

/-- A coordinate fits its 8-bit field (R91, formats C and P). -/
def coordFits (n : Nat) : Bool := n < 256

/-- A grid offset fits its 16-bit field (R91, format G). -/
def offsetFits (n : Nat) : Bool := n < 65536

/-- Every operand fits its field. The operands held as bit vectors have their field's width already. That a coordinate lies
inside the grid is no matter of form: outside it a command raises RANGE_ERR (R131). -/
def WellFormed (i : Instr) : Bool :=
  match i with
  | .setpix col row _ _ _ => coordFits col && coordFits row
  | .setpixp col row _ => coordFits col && coordFits row
  | .ldg off => offsetFits off
  | .stg off _ => offsetFits off
  | .beginCmd => true
  | .getpix => true
  | .showCmd => true
  | .bufwait => true
  | .setbri _ => true
  | .getbri => true

end Sys2Proof
end

