-- ==== Sys2Proof/Decode.lean ====
section
/-! DEFINITION. From a command word to a command and back (R90 to R94, R106): the decoder, total on every word and refusing
illegal ones by name, the encoder, and the opcode table's rows. -/

namespace Sys2Proof

/-- Why a word is illegal (R94). Both raise CMD_ERR. -/
inductive DecodeError where
  /-- OP is 0x00 or in 0x0B..0xFF. -/
  | reservedOpcode (op : Byte)
  /-- OP is legal and a must-be-zero bit of its format is 1. -/
  | mustBeZero (op : Byte)
deriving DecidableEq, Repr

/-! ### The fields (R91, R93) -/

/-- OP = CMD[63:56]. -/
def opField (w : Command) : Byte := w.extractLsb' 56 8

/-- col = CMD[55:48]. -/
def colField (w : Command) : Byte := w.extractLsb' 48 8

/-- row = CMD[47:40]. -/
def rowField (w : Command) : Byte := w.extractLsb' 40 8

/-- r = CMD[39:32]; val8 of format G stands in the same bits. -/
def rField (w : Command) : Byte := w.extractLsb' 32 8

/-- g = CMD[31:24]. -/
def gField (w : Command) : Byte := w.extractLsb' 24 8

/-- b = CMD[23:16]. -/
def bField (w : Command) : Byte := w.extractLsb' 16 8

/-- pix = CMD[39:16]. -/
def pixField (w : Command) : BitVec 24 := w.extractLsb' 16 24

/-- off = CMD[55:40]. -/
def offField (w : Command) : BitVec 16 := w.extractLsb' 40 16

/-- f32 = CMD[31:0]. -/
def f32Field (w : Command) : Word32 := w.extractLsb' 0 32

/-- The command i if the len bits from bit lo up, must-be-zero in its format, are all zero (R91, R94). -/
def ifClear (w : Command) (lo len : Nat) (i : Instr) : Except DecodeError Instr :=
  if w.extractLsb' lo len = 0#len then .ok i else .error (.mustBeZero (opField w))

/-- The decoder: OP first, then the fields of that OP's format (R92, R106). -/
def decode (w : Command) : Except DecodeError Instr :=
  match (opField w).toNat with
  | 0x01 => ifClear w 0 56 .beginCmd
  | 0x02 => ifClear w 0 16 (.setpix (colField w).toNat (rowField w).toNat (rField w) (gField w) (bField w))
  | 0x03 => ifClear w 0 16 (.setpixp (colField w).toNat (rowField w).toNat (pixField w))
  | 0x04 => ifClear w 0 56 .getpix
  | 0x05 => ifClear w 0 40 (.ldg (offField w).toNat)
  | 0x06 => ifClear w 0 32 (.stg (offField w).toNat (rField w))
  | 0x07 => ifClear w 0 56 .showCmd
  | 0x08 => ifClear w 0 56 .bufwait
  | 0x09 => ifClear w 32 24 (.setbri (f32Field w))
  | 0x0A => ifClear w 0 56 .getbri
  | _ => .error (.reservedOpcode (opField w))

/-- The command the decoder reads from a word given as a number with bit 0 its least significant bit, the bits from nbits up
zero: a command is one 64-bit value and has no byte order (R66, R90). -/
def decodeTableWord (nbits w : Nat) : Option Instr :=
  match decode (BitVec.ofNat 64 (w % 2 ^ nbits)) with
  | .ok i => some i
  | .error _ => none

/-! ### The encoder (R91) -/

/-- Format N: OP and 56 zero bits. -/
def formatN (op : Byte) : Command := op ++ 0#56

/-- Format C: OP, col, row, r, g, b and 16 zero bits. -/
def formatC (op : Byte) (col row : Nat) (r g b : Byte) : Command :=
  op ++ BitVec.ofNat 8 col ++ BitVec.ofNat 8 row ++ r ++ g ++ b ++ 0#16

/-- Format P: OP, col, row, pix and 16 zero bits. -/
def formatP (op : Byte) (col row : Nat) (pix : BitVec 24) : Command :=
  op ++ BitVec.ofNat 8 col ++ BitVec.ofNat 8 row ++ pix ++ 0#16

/-- Format G: OP, off, val8 and 32 zero bits. -/
def formatG (op : Byte) (off : Nat) (val8 : Byte) : Command :=
  op ++ BitVec.ofNat 16 off ++ val8 ++ 0#32

/-- Format F: OP, 24 zero bits and f32. -/
def formatF (op : Byte) (f32 : Word32) : Command := op ++ 0#24 ++ f32

/-- The word of a command (R91, R92); of a well-formed one, the word that decodes to it. -/
def encode (i : Instr) : Command :=
  match i with
  | .beginCmd => formatN 0x01#8
  | .setpix col row r g b => formatC 0x02#8 col row r g b
  | .setpixp col row pix => formatP 0x03#8 col row pix
  | .getpix => formatN 0x04#8
  | .ldg off => formatG 0x05#8 off 0#8
  | .stg off val8 => formatG 0x06#8 off val8
  | .showCmd => formatN 0x07#8
  | .bufwait => formatN 0x08#8
  | .setbri f32 => formatF 0x09#8 f32
  | .getbri => formatN 0x0A#8

/-! ### The opcode table (spec/opcode_table.json) -/

/-- One row: a word belongs to it when its bits under the mask are the match. -/
structure OpcodeRow where
  /-- The row's mnemonic. -/
  mnemonic : String
  /-- The row's match. -/
  pattern : Command
  /-- The row's mask: OP and the must-be-zero bits of the format. -/
  mask : Command
deriving DecidableEq, Repr

/-- The ten rows, in the table's order. -/
def opcodeRows : List OpcodeRow := [
  ⟨"BEGIN",   0x0100000000000000#64, 0xFFFFFFFFFFFFFFFF#64⟩,
  ⟨"SETPIX",  0x0200000000000000#64, 0xFF0000000000FFFF#64⟩,
  ⟨"SETPIXP", 0x0300000000000000#64, 0xFF0000000000FFFF#64⟩,
  ⟨"GETPIX",  0x0400000000000000#64, 0xFFFFFFFFFFFFFFFF#64⟩,
  ⟨"LDG",     0x0500000000000000#64, 0xFF0000FFFFFFFFFF#64⟩,
  ⟨"STG",     0x0600000000000000#64, 0xFF000000FFFFFFFF#64⟩,
  ⟨"SHOW",    0x0700000000000000#64, 0xFFFFFFFFFFFFFFFF#64⟩,
  ⟨"BUFWAIT", 0x0800000000000000#64, 0xFFFFFFFFFFFFFFFF#64⟩,
  ⟨"SETBRI",  0x0900000000000000#64, 0xFFFFFFFF00000000#64⟩,
  ⟨"GETBRI",  0x0A00000000000000#64, 0xFFFFFFFFFFFFFFFF#64⟩]

/-- The word belongs to the row. -/
def OpcodeRow.covers (row : OpcodeRow) (w : Command) : Bool := w &&& row.mask == row.pattern

end Sys2Proof
end

