-- ==== Sys2Proof/Machine/Encoder.lean ====
section
/-! DEFINITION. The Bitplane Encoder's transform (R150 to R154) and the wire format of a pair (R97, R98). -/

namespace Sys2Proof.Machine

/-- bit(v, k) << pos in an output byte (R97). -/
def lineBit (v : Byte) (k pos : Nat) : Byte := if v.getLsbD k then 1#8 <<< pos else 0#8

/-- Channel ch (0 = R, 1 = G, 2 = B) of the pixel at (col, row) of a grid (R62). -/
def channel (c : Config) (grid : Nat → Byte) (col row ch : Nat) : Byte := grid ((row * c.cols + col) * 3 + ch)

/-- The data byte of row r, plane k, pair position p (R97, R150). -/
def dataByte (c : Config) (grid : Nat → Byte) (r k p : Nat) : Byte :=
  c.idleBits ||| lineBit (channel c grid (c.colAt p) r 0) k c.rPos
    ||| lineBit (channel c grid (c.colAt p) r 1) k c.gPos
    ||| lineBit (channel c grid (c.colAt p) r 2) k c.bPos

/-- The clock byte of the pair (R98). -/
def clockByte (c : Config) (grid : Nat → Byte) (r k p : Nat) : Byte := dataByte c grid r k p ||| c.clkMask

/-- off(r, k, p), the offset of the pair (R63). -/
def pairOff (c : Config) (r k p : Nat) : Nat := ((r * c.bitDepth + k) * c.cols + p) * 2

/-- Encode(grid), byte by byte (R150): the byte at an offset of the buffer, the row, plane and position read off the offset. -/
def encodeAt (c : Config) (grid : Nat → Byte) (off : Nat) : Byte :=
  let pair := off / 2
  let p := pair % c.cols
  let k := pair / c.cols % c.bitDepth
  let r := pair / c.cols / c.bitDepth
  if off % 2 = 0 then dataByte c grid r k p else clockByte c grid r k p

/-- The grid as the encode step reads it (R72): GRID has a value at every offset. -/
def gridOf (m : Memory) (off : Nat) : Byte := (Memory.read Region.grid.unlisted m off).getD 0#8

/-- The all-zero grid. -/
def blackGrid (_off : Nat) : Byte := 0#8

/-- Write Encode(grid) into BS[a], every byte of it (R155 S2, R232). -/
def encodeInto (a : Bool) (grid : Nat → Byte) (s : State) : State :=
  fillBytes (Region.bs a) s.cfg.bsBytes (encodeAt s.cfg grid) s

end Sys2Proof.Machine
end

