-- ==== Sys2Proof/Machine/Operands.lean ====
section
/-! DEFINITION. The operand forms (R91, R93): coordinates and the pixel they name, the channels of a Pixel, a grid offset, a
binary32 pattern. -/

namespace Sys2Proof.Machine

/-- Coordinate domain: 0 <= col < COLS, 0 <= row < ROWS (R131). -/
def inGrid (c : Config) (col row : Nat) : Bool := col < c.cols && row < c.rows

/-- The offset in GRID of the pixel at (col, row) (R62). -/
def pixelBase (c : Config) (col row : Nat) : Nat := (row * c.cols + col) * 3

/-- R = pix[23:16] (R91). -/
def pixR (pix : BitVec 24) : Byte := pix.extractLsb' 16 8

/-- G = pix[15:8] (R91). -/
def pixG (pix : BitVec 24) : Byte := pix.extractLsb' 8 8

/-- B = pix[7:0] (R91). -/
def pixB (pix : BitVec 24) : Byte := pix.extractLsb' 0 8

/-- Domain of a grid offset: off < GRID_BYTES (R134). -/
def inGridBytes (c : Config) (off : Nat) : Bool := off < c.gridBytes

/-- The sign bit f32[31] (R93). -/
def f32Sign (f : Word32) : Bool := f.getLsbD 31

/-- The exponent field f32[30:23] (R93). -/
def f32Exp (f : Word32) : BitVec 8 := f.extractLsb' 23 8

/-- The fraction field f32[22:0] (R93). -/
def f32Frac (f : Word32) : BitVec 23 := f.extractLsb' 0 23

/-- f32[30:0] (R185). -/
def f32Magnitude (f : Word32) : BitVec 31 := f.extractLsb' 0 31

end Sys2Proof.Machine
end

