-- ==== Sys2Proof/Machine/Tables.lean ====
section
/-! DEFINITION. The Address Table Builder (R170), the Timing Table Builder (R180 to R183) and the clamp of the brightness
operand (R185). -/

namespace Sys2Proof.Machine

/-! ### The Address Table -/

/-- BuildAddr(), byte by byte (R170): byte sf * ADDR_REPEAT + j is ROW_CODE(row(sf)). -/
def buildAddrAt (c : Config) (off : Nat) : Byte := c.rowCode (c.rowOf (off / c.addrRepeat))

/-! ### The brightness -/

/-- The pattern 1.0. -/
def f32One : Word32 := 0x3F800000#32

/-- Clamp (R185). -/
def clamp (f : Word32) : Word32 :=
  if f32Exp f = 0xFF#8 ∧ f32Frac f ≠ 0#23 then 0#32
  else if f32Sign f then 0#32
  else if 0x3F800000 < (f32Magnitude f).toNat then f32One
  else f

/-- The patterns BRIGHT may hold: +0.0 .. 1.0 (R29). -/
def isBrightness (b : Word32) : Bool := b.toNat ≤ 0x3F800000

/-- floor(b * T_UNIT) for the exact rational value b of the pattern, no rounding (R181). A pattern that is no brightness stands
for no number here; what it would give is a free value (log 14). -/
def c0Of (c : Config) (b : Word32) : Nat :=
  let e := (f32Exp b).toNat
  let f := (f32Frac b).toNat
  if isBrightness b then
    if e = 0 then f * c.tUnit / 2 ^ 149
    else (2 ^ 23 + f) * c.tUnit / 2 ^ (150 - e)
  else Config.freeCount b

/-! ### The Timing Table -/

/-- Period(k) (R180). -/
def periodOf (c : Config) (k : Nat) : Nat := c.tUnit * 2 ^ k

/-- Compare(k) for a C0 (R182). -/
def compareOf (c0 k : Nat) : Nat := c0 * 2 ^ k

/-- per[s] of BuildTiming (R183). -/
def periodEntry (c : Config) (s : Nat) : Nat := periodOf c (c.planeOf s)

/-- cmp[s] of BuildTiming(C0) (R183). -/
def compareEntry (c : Config) (c0 s : Nat) : Nat := compareOf c0 (c.planeOf s)

/-- C0 <- floor(value(BRIGHT) * T_UNIT) (R186 T0, R232). -/
def latchC0 (s : State) : State := { s with c0 := truncEntry s.cfg (c0Of s.cfg s.bright) }

end Sys2Proof.Machine
end

