-- ==== Sys2Proof/Machine/Begin.lean ====
section
/-! DEFINITION. BEGIN (R230 to R234): the configuration check, the tables, the blank buffers, the descriptors, the arming. One
step: the chain is stopped from its first line to its last (R232). -/

namespace Sys2Proof.Machine

/-- The descriptors as BEGIN programs them (R32), DESC_DATA.SRC = BS0 (R232). -/
def programmed (c : Config) : Descriptors where
  addr := ⟨.addrTbl, .addrPort, 1, c.addrRepeat, c.nsf, .descPeriod⟩
  period := ⟨.periodTbl, .tmrPeriod, c.entryBytes, 1, c.nsf, .descCompare⟩
  compare := ⟨.compareTbl, .tmrCompare, c.entryBytes, 1, c.nsf, .descData⟩
  data := ⟨Region.bs false, .dataPort, 1, c.slice, c.nsf, .descAddr⟩

/-- ADDR_TBL <- BuildAddr() (R173, R232). -/
def buildAddrTable (s : State) : State := fillBytes .addrTbl s.cfg.addrBytes (buildAddrAt s.cfg) s

/-- (PERIOD_TBL, COMPARE_TBL) <- BuildTiming(C0) (R183, R232). -/
def buildTimingTable (s : State) : State :=
  fillEntries .compareTbl (compareEntry s.cfg s.c0.toNat) (fillEntries .periodTbl (periodEntry s.cfg) s)

/-- BS0, BS1 <- Encode(all-zero grid) (R232). -/
def blankBuffers (s : State) : State := encodeInto true blackGrid (encodeInto false blackGrid s)

/-- Program the descriptors, clear the handshake, put the scan at sub-frame 0, arm (R232). -/
def armChain (s : State) : State :=
  { s with
    desc := programmed s.cfg
    active := false
    swapPending := false
    irqPending := false
    sf := 0
    phase := .a
    idx := 0
    runState := .running }

/-- The effect of BEGIN where CFG_OK holds (R232). -/
def beginEffect (s : State) : State :=
  respond 0#8 0#32 (armChain (blankBuffers (buildTimingTable (latchC0 (buildAddrTable { s with runState := .idle })))))

/-- BEGIN on a configuration that is not CFG_OK (R231). -/
def beginRefusal (s : State) : State := raise .cfgErr { s with runState := .cfgFault, irqPending := false }

/-- BEGIN (R230), the same in every RUNSTATE (R233). -/
def execBegin (s : State) : Result := if s.cfg.Ok then .next (beginEffect s) else .next (beginRefusal s)

end Sys2Proof.Machine
end

