-- ==== Sys2Proof/Machine/Brightness.lean ====
section
/-! DEFINITION. SETBRI (R186 to R188): the clamp step T0, then one step per entry write, HOSTPOS counting them. -/

namespace Sys2Proof.Machine

/-- T0: store the clamped brightness, latch C0 (R186). -/
def briClamp (f32 : Word32) (s : State) : State := { latchC0 { s with bright := clamp f32 } with hostPos := .bri 0 }

/-- The region write W(i) goes to: even the periods, odd the compare values (R186). -/
def briRegion (i : Nat) : Region := if i % 2 = 0 then .periodTbl else .compareTbl

/-- The value write W(i) stores in entry i div 2 (R186). -/
def briValue (c : Config) (c0 i : Nat) : Nat :=
  if i % 2 = 0 then periodEntry c (i / 2) else compareEntry c c0 (i / 2)

/-- What follows write W(i): the next write, or after the last the response (R186). -/
def briAdvance (i : Nat) (s : State) : State :=
  if i + 1 = 2 * s.cfg.ttEntries then respond 0#8 0#32 s else { s with hostPos := .bri (i + 1) }

/-- W(i) (R186). With i past the last write, which no reachable state has, nothing is left to write: DESIGN CHOICE (log 13),
safe. -/
def briWrite (i : Nat) (s : State) : Result :=
  if i < 2 * s.cfg.ttEntries then
    attempt (writeEntry (briRegion i) (i / 2) (briValue s.cfg s.c0.toNat i) s) fun t => .next (briAdvance i t)
  else .next (respond 0#8 0#32 s)

/-- SETBRI's next step (R186, R187): the rebuild is never fused, so that CHAIN steps may fall between two writes. A
configuration that is not CFG_OK gives SETBRI no meaning (R9, U9; log 5). -/
def execSetbri (f32 : Word32) (s : State) : Result :=
  if s.cfg.Ok then
    match s.hostPos with
    | .bri i => briWrite i s
    | .none => .next (briClamp f32 s)
    | .show1 => .next (briClamp f32 s)
    | .show2 => .next (briClamp f32 s)
  else .refused .configNotOk

end Sys2Proof.Machine
end

