-- ==== Sys2Proof/Machine/Flags.lean ====
section
/-! DEFINITION. The handshake flags (R25 to R27): each of the three atomic operations on them (R76), and the value BUFWAIT
reports. -/

namespace Sys2Proof.Machine

/-- SHOW's first atomic operation (R76 item 1): retract a pending swap and latch the target from ACTIVE (R155 S1). -/
def retractAndLatch (s : State) : State := { s with swapPending := false, encTarget := !s.active }

/-- SHOW's last atomic operation (R76 item 2): request the swap (R155 S3). -/
def requestSwap (s : State) : State := { s with swapPending := true }

/-- The repoint (R210, R246): the other buffer becomes active, the data stream's source follows, the request is consumed. -/
def swapBuffers (s : State) : State :=
  { s with
    active := !s.active
    desc := { s.desc with data := { s.desc.data with src := Region.bs (!s.active) } }
    swapPending := false }

/-- REFRESH's atomic operation (R76 item 3): swap if, and only if, a swap is pending. -/
def swapIfPending (s : State) : State := if s.swapPending then swapBuffers s else s

/-- zext_32 of a flag (R95). -/
def flagValue (b : Bool) : Word32 := if b then 1#32 else 0#32

end Sys2Proof.Machine
end

