-- ==== Sys2Proof/Machine/FrameBuffer.lean ====
section
/-! DEFINITION. The Frame Buffer Manager's single-step commands (R130 to R137). Each runs the same way in every RUNSTATE
(R130). On a configuration that is not CFG_OK, to which R9 gives no meaning, a grid access that stays inside GRID as
`regionBytes` bounds it runs, and one that does not faults: a DESIGN CHOICE (log 5), safe. -/

namespace Sys2Proof.Machine

/-- The three byte writes of a pixel, then respond(0, 0) (R131, R132). -/
def writePixel (base : Nat) (r g b : Byte) (s : State) : Result :=
  attempt (writeByte .grid base r s) fun s1 =>
    attempt (writeByte .grid (base + 1) g s1) fun s2 =>
      attempt (writeByte .grid (base + 2) b s2) fun s3 =>
        .next (respond 0#8 0#32 s3)

/-- A pixel write at coordinates: RANGE_ERR outside the grid, nothing written (R131, R243). -/
def setPixel (col row : Nat) (r g b : Byte) (s : State) : Result :=
  if inGrid s.cfg col row then writePixel (pixelBase s.cfg col row) r g b s else .next (raise .rangeErr s)

/-- SETPIX (R131). -/
def execSetpix (col row : Nat) (r g b : Byte) (s : State) : Result := setPixel col row r g b s

/-- SETPIXP (R132). -/
def execSetpixp (col row : Nat) (pix : BitVec 24) (s : State) : Result :=
  setPixel col row (pixR pix) (pixG pix) (pixB pix) s

/-- GETPIX (R133): the handle 0. -/
def execGetpix (s : State) : Result := .next (respond 0#8 0#32 s)

/-- LDG (R134). -/
def execLdg (off : Nat) (s : State) : Result :=
  if inGridBytes s.cfg off then
    attempt (readByte .grid off s) fun v => .next (respond 0#8 (v.setWidth 32) s)
  else .next (raise .rangeErr s)

/-- STG (R135). -/
def execStg (off : Nat) (val8 : Byte) (s : State) : Result :=
  if inGridBytes s.cfg off then
    attempt (writeByte .grid off val8 s) fun t => .next (respond 0#8 0#32 t)
  else .next (raise .rangeErr s)

/-- BUFWAIT (R136). -/
def execBufwait (s : State) : Result := .next (respond 0#8 (flagValue s.swapPending) s)

/-- GETBRI (R137). -/
def execGetbri (s : State) : Result := .next (respond 0#8 s.bright s)

end Sys2Proof.Machine
end

