-- ==== Sys2Proof/Machine/Show.lean ====
section
/-! DEFINITION. SHOW (R155 to R159): three steps of the HOST, HOSTPOS saying which is next. -/

namespace Sys2Proof.Machine

/-- S1: retract, latch the target (R155). -/
def showRetract (s : State) : State := { retractAndLatch s with hostPos := .show1 }

/-- S2: encode GRID into BS[ENC_TARGET] (R155). -/
def showEncode (s : State) : State := { encodeInto s.encTarget (gridOf s.mem.grid) s with hostPos := .show2 }

/-- S3: request the swap, respond (R155). -/
def showCommit (s : State) : State := respond 0#8 0#32 { requestSwap s with hostPos := .none }

/-- SHOW's next step (R155, R156): the three are never fused, so that CHAIN and REFRESH steps may fall between them. A
configuration that is not CFG_OK gives SHOW no meaning (R9, U9; log 5). -/
def execShow (s : State) : Result :=
  if s.cfg.Ok then
    match s.hostPos with
    | .show1 => .next (showEncode s)
    | .show2 => .next (showCommit s)
    | .none => .next (showRetract s)
    | .bri _ => .next (showRetract s)
  else .refused .configNotOk

end Sys2Proof.Machine
end

