-- ==== Sys2Proof/Machine/Dispatch.lean ====
section
/-! DEFINITION. One arm per command. A multi-step command's meaning is its next step, which HOSTPOS names (R39). -/

namespace Sys2Proof.Machine

def exec (i : Instr) (s : State) : Host.Outcome State Fault Refusal :=
  match i with
  | .beginCmd => Sys2Proof.Machine.execBegin s
  | .setpix col row r g b => Sys2Proof.Machine.execSetpix col row r g b s
  | .setpixp col row pix => Sys2Proof.Machine.execSetpixp col row pix s
  | .getpix => Sys2Proof.Machine.execGetpix s
  | .ldg off => Sys2Proof.Machine.execLdg off s
  | .stg off val8 => Sys2Proof.Machine.execStg off val8 s
  | .showCmd => Sys2Proof.Machine.execShow s
  | .bufwait => Sys2Proof.Machine.execBufwait s
  | .setbri f32 => Sys2Proof.Machine.execSetbri f32 s
  | .getbri => Sys2Proof.Machine.execGetbri s

end Sys2Proof.Machine
end

