-- ==== Sys2Proof/Machine/HostAgent.lean ====
section
/-! DEFINITION. The HOST agent: issuing a command word, and running the command in flight (R13, R130); and whose turn it is. -/

namespace Sys2Proof.Machine

/-- Whose turn it is, and the state with that turn taken: the first turn that is fixed, else a free value (R12; log 1). -/
def takeTurn (s : State) : Agent × State :=
  match s.sched with
  | a :: rest => (a, { s with sched := rest })
  | [] => (Config.freeAgent s.drawn, { s with drawn := s.drawn + 1 })

/-- The HOST writes a word to CMD (R130). -/
def issue (w : Command) (rest : List Command) (s : State) : State := { s with cmd := w, prog := rest }

/-- The next step of the command in CMD: an illegal word raises CMD_ERR, a legal one runs its own rule (R130). -/
def runCommand (s : State) : Result :=
  match decode s.cmd with
  | .ok i => exec i s
  | .error _ => .next (raise .cmdErr s)

/-- A turn of the HOST: the next step of the command in flight, or with none in flight the first step of the next command, or
with none left nothing (R13, R39). -/
def hostTurn (s : State) : Result :=
  match s.hostPos, s.prog with
  | .none, [] => .next s
  | .none, w :: rest => runCommand (issue w rest s)
  | _, _ => runCommand s

end Sys2Proof.Machine
end

