-- ==== Sys2Proof/Machine/Refresh.lean ====
section
/-! DEFINITION. The REFRESH agent: the refresh interrupt's handler, one atomic step (R245 to R249). -/

namespace Sys2Proof.Machine

/-- REFRESH is enabled when RUNSTATE = RUNNING and irq_pending = 1 (R246). -/
def refreshEnabled (s : State) : Bool := s.runState == .running && s.irqPending

/-- The REFRESH step, the whole of the Refresh Handler (R246). It saves nothing and has no return (R248, R249). -/
def refreshStep (s : State) : State := ackIrq s.swapPending (swapIfPending s)

/-- A turn of REFRESH. -/
def refreshTurn (s : State) : Result := if refreshEnabled s then .next (refreshStep s) else .next s

end Sys2Proof.Machine
end

