-- ==== Sys2Proof/Machine/Step.lean ====
section
/-! DEFINITION. One step of the machine: one turn of one agent (R12, R14). -/

namespace Sys2Proof.Machine

/-- A turn of an agent. -/
def turn (a : Agent) (s : State) : Result :=
  match a with
  | .host => hostTurn s
  | .chain => chainTurn s
  | .refresh => refreshTurn s
  | .env => envTurn s

/-- One step: whose turn it is, then that agent's turn. -/
def step (s : State) : Host.Outcome State Fault Refusal := turn (takeTurn s).1 (takeTurn s).2

/-- s with the command word w where the next step fetches it: the next turn is the HOST's, no command is in flight, and the
next word the HOST issues is w, its bits from nbits up zero. It stands for the program being given to the HOST from outside
(R37; log 3). -/
def State.withFetchWord (s : State) (nbits w : Nat) : State :=
  { s with
    sched := .host :: s.sched.tail
    hostPos := .none
    prog := BitVec.ofNat 64 (w % 2 ^ nbits) :: s.prog.tail }

end Sys2Proof.Machine
end

