-- ==== Sys2Proof/Machine/Descriptors.lean ====
section
/-! DEFINITION. The CHAIN read off its descriptors (R32, R208, R253): one generic unit transfer, driven by a descriptor's
fields. The steps of Chain.lean are the rules' own pseudocode; that both are the same machine is a statement about them. -/

namespace Sys2Proof.Machine

/-- The descriptor whose stream a phase moves; none while waiting for the end of the slot (R23, R32). -/
def phaseDescriptor (d : Descriptors) (ph : Phase) : Option Descriptor :=
  match ph with
  | .a => some d.addr
  | .p => some d.period
  | .c => some d.compare
  | .d => some d.data
  | .w => none

/-- The phase a link leads to; the link back to DESC_ADDR goes through the slot's expiry (R32, R208). -/
def linkPhase (l : DescName) : Phase :=
  match l with
  | .descPeriod => .p
  | .descCompare => .c
  | .descData => .d
  | .descAddr => .w

/-- Fetch n bytes of a region as one unit (R32, R66). -/
def readUnit (r : Region) (off n : Nat) (s : State) : Except Fault Nat :=
  if off + n ≤ regionBytes s.cfg r then
    match Memory.loadLE r.unlisted (s.mem.get r) off n with
    | some v => .ok v
    | none => .error (.unwrittenByte r off)
  else .error (.outsideRegion r off)

/-- Drive a unit on an output and emit its event (R15, R33, R34). -/
def drive (p : Port) (v : Nat) (s : State) : State :=
  match p with
  | .addrPort => emit (.addr (BitVec.ofNat 8 v)) { s with addrPort := BitVec.ofNat 8 v }
  | .tmrPeriod => emit (.period (BitVec.ofNat 32 v)) { s with tmrPeriod := BitVec.ofNat 32 v }
  | .tmrCompare => emit (.compare (BitVec.ofNat 32 v)) { s with tmrCompare := BitVec.ofNat 32 v }
  | .dataPort => emit (.data (BitVec.ofNat 8 v)) { s with dataPort := BitVec.ofNat 8 v }

/-- Count the unit; when MINOR units are done, follow the link (R32, R208). -/
def countUnit (d : Descriptor) (s : State) : State :=
  if s.idx + 1 = d.minor then
    { s with phase := linkPhase d.link, idx := if d.link = .descAddr then s.idx + 1 else 0 }
  else { s with idx := s.idx + 1 }

/-- Move one unit of a descriptor's stream: unit SF * MINOR + IDX of SRC to DST (R32, R200). -/
def transferUnit (d : Descriptor) (s : State) : Result :=
  attempt (readUnit d.src ((s.sf * d.minor + s.idx) * d.unitBytes) d.unitBytes s) fun v =>
    .next (countUnit d (drive d.dst v s))

/-- The slot's end, MAJOR sub-frames making a scan cycle (R32, R206). -/
def expireSlot (d : Descriptor) (s : State) : State :=
  let t := if s.sf + 1 = d.major then raiseIrq { s with sf := 0 } else { s with sf := s.sf + 1 }
  { t with phase := .a, idx := 0 }

/-- The CHAIN's next step read off the descriptors. -/
def descriptorMove (s : State) : Result :=
  match phaseDescriptor s.desc s.phase with
  | some d => transferUnit d s
  | none => .next (expireSlot s.desc.data s)

end Sys2Proof.Machine
end

