-- ==== Sys2Proof/Safety.lean ====
section
/-! DEFINITION. What a safe state is (R36 and what it rests on), runs of several turns, and the event sequences of R212, in the
terms the statements use. -/

namespace Sys2Proof.Machine

/-! ### The invariant -/

/-- Every region's contents are in canonical form, inside the region. -/
def MemoryWf (s : State) : Prop := ∀ r : Region, Memory.wf r.unlisted (regionBytes s.cfg r) (s.mem.get r) = true

/-- C0 has been latched and is still of use: the chain runs, or a SETBRI is past its clamp step. Elsewhere R38 gives C0 no
value. -/
def C0InUse (s : State) : Prop := s.runState = .running ∨ ∃ i, s.hostPos = .bri i

/-- BRIGHT stands for a number in [0, 1] (R29), and C0, where it is in use, is at most T_UNIT (R30). -/
def BrightnessInRange (s : State) : Prop :=
  isBrightness s.bright = true ∧ (C0InUse s → s.c0.toNat ≤ s.cfg.tUnit)

/-- While a SHOW is in flight its target is the back buffer and no swap is pending (R36 item 4, R156). -/
def ShowTargetsBack (s : State) : Prop :=
  s.hostPos = .show1 ∨ s.hostPos = .show2 → s.encTarget = !s.active ∧ s.swapPending = false

/-- ADDR_TBL is BuildAddr() and PERIOD_TBL is R180's periods (R36 items 3 and 6). -/
def TablesBuilt (s : State) : Prop :=
  (∀ off, off < s.cfg.addrBytes → s.byteAt .addrTbl off = some (buildAddrAt s.cfg off)) ∧
  (∀ i, i < s.cfg.ttEntries → s.entryAt .periodTbl i = some (periodEntry s.cfg i))

/-- Every compare entry has a value, and it is at most the entry's period (R36 item 5, R184 item 3). -/
def ComparesContained (s : State) : Prop :=
  ∀ i, i < s.cfg.ttEntries → ∃ v, s.entryAt .compareTbl i = some v ∧ v ≤ periodEntry s.cfg i

/-- Every byte of both Bitstream Buffers has been written (R232). -/
def BuffersWritten (s : State) : Prop :=
  ∀ a off, off < s.cfg.bsBytes → ∃ b, s.byteAt (Region.bs a) off = some b

/-- SF is a sub-frame and IDX fits the phase (R23; while PHASE = W, IDX is SLICE, log 20). -/
def ScanInRange (s : State) : Prop :=
  s.sf < s.cfg.nsf ∧
  match s.phase with
  | .a => s.idx < s.cfg.addrRepeat
  | .p => s.idx = 0
  | .c => s.idx = 0
  | .d => s.idx < s.cfg.slice
  | .w => s.idx = s.cfg.slice

/-- The refresh interrupt is pending only at the cycle boundary, where the chain is held (R207, R247 item 3). -/
def IrqOnlyAtBoundary (s : State) : Prop := s.irqPending = true → hold s = true

/-- The descriptors are as BEGIN programmed them, DESC_DATA.SRC = BS[ACTIVE] (R32, R36 item 1). -/
def DescriptorsProgrammed (s : State) : Prop :=
  s.desc = { programmed s.cfg with data := { (programmed s.cfg).data with src := Region.bs s.active } }

/-- What R36 asks of a RUNNING state, and what the chain's fetches need. -/
structure ArmedOk (s : State) : Prop where
  tables : TablesBuilt s
  compares : ComparesContained s
  buffers : BuffersWritten s
  scan : ScanInRange s
  irq : IrqOnlyAtBoundary s
  descriptors : DescriptorsProgrammed s

/-- The state's invariant. -/
structure Inv (s : State) : Prop where
  config : s.cfg.Ok
  memory : MemoryWf s
  brightness : BrightnessInRange s
  target : ShowTargetsBack s
  armed : s.runState = .running → ArmedOk s

/-- Every compare entry is R182's for the C0 latched (R183). -/
def ComparesBuilt (s : State) : Prop :=
  ∀ i, i < s.cfg.ttEntries → s.entryAt .compareTbl i = some (compareEntry s.cfg s.c0.toNat i)

/-- A multi-step command in flight is the one in CMD (R21, R39). -/
def CommandInFlight (s : State) : Prop :=
  match s.hostPos with
  | .none => True
  | .show1 => decode s.cmd = .ok .showCmd
  | .show2 => decode s.cmd = .ok .showCmd
  | .bri i => i < 2 * s.cfg.ttEntries ∧ ∃ f, decode s.cmd = .ok (.setbri f)

/-- While a SETBRI is in flight after i writes, the entries those writes went to are new (R187 item 4). -/
def RebuildPrefix (s : State) : Prop :=
  ∀ i, s.hostPos = .bri i →
    (∀ j, j < s.cfg.ttEntries → 2 * j < i → s.entryAt .periodTbl j = some (periodEntry s.cfg j)) ∧
    (∀ j, j < s.cfg.ttEntries → 2 * j + 1 < i → s.entryAt .compareTbl j = some (compareEntry s.cfg s.c0.toNat j))

/-- The Timing Table's story (R187): new up to the rebuild's position while a SETBRI is in flight, wholly new while none is
and the chain runs. -/
structure RebuildOk (s : State) : Prop where
  inFlight : CommandInFlight s
  newBelow : RebuildPrefix s
  built : s.runState = .running → (∀ i, s.hostPos ≠ .bri i) → ComparesBuilt s

/-! ### Runs -/

/-- The turns of a list of agents, one after another, stopping at the first fault or refusal. -/
def turns (as : List Agent) (s : State) : Result :=
  match as with
  | [] => .next s
  | a :: rest =>
    match turn a s with
    | .next t => turns rest t
    | .fault f => .fault f
    | .refused r => .refused r

/-- n turns of the CHAIN. -/
def chainTurns (n : Nat) (s : State) : Result := turns (List.replicate n .chain) s

/-- The HOST's next turn is the first step of command i: none is in flight, and the next word decodes to it. -/
def AboutToIssue (s : State) (i : Instr) : Prop :=
  s.hostPos = .none ∧ ∃ w rest, s.prog = w :: rest ∧ decode w = .ok i

/-! ### What comes out (R212) -/

/-- A byte of a region as the chain drives it: 0 where nothing has been written, which no RUNNING state's buffers have. -/
def State.byteOr0 (s : State) (r : Region) (off : Nat) : Byte := (s.byteAt r off).getD 0#8

/-- SubFrame(sf, a) as the state's C0 and buffers stand (R212). -/
def subFrame (s : State) (sf : Nat) (a : Bool) : List Event :=
  List.replicate s.cfg.addrRepeat (.addr (s.cfg.rowCode (s.cfg.rowOf sf)))
    ++ [.period (BitVec.ofNat 32 (s.cfg.tUnit * 2 ^ s.cfg.planeOf sf)),
        .compare (BitVec.ofNat 32 (s.c0.toNat * 2 ^ s.cfg.planeOf sf))]
    ++ (List.range s.cfg.slice).map fun j => .data (s.byteOr0 (Region.bs a) (sf * s.cfg.slice + j))

/-- Cycle(a) as the state's C0 and buffers stand (R212). -/
def scanCycle (s : State) (a : Bool) : List Event :=
  (List.range s.cfg.nsf).flatMap (fun sf => subFrame s sf a) ++ [.irq]

/-! ### What the statements compare the meanings with -/

/-- The exact value of a binary32 pattern whose exponent field is not 255, its sign bit clear (R181). -/
def f32Value (b : Word32) : ℚ :=
  if (f32Exp b).toNat = 0 then (f32Frac b).toNat * 2 ^ (-149 : ℤ)
  else (2 ^ 23 + (f32Frac b).toNat) * 2 ^ (((f32Exp b).toNat : ℤ) - 150)

/-- R94's illegal words, said of the bits. -/
def IllegalWord (w : Command) : Prop :=
  (opField w).toNat = 0x00 ∨ 0x0B ≤ (opField w).toNat ∨
  ((opField w).toNat ∈ [0x01, 0x04, 0x07, 0x08, 0x0A] ∧ w.extractLsb' 0 56 ≠ 0#56) ∨
  ((opField w).toNat ∈ [0x02, 0x03] ∧ w.extractLsb' 0 16 ≠ 0#16) ∨
  ((opField w).toNat = 0x05 ∧ w.extractLsb' 0 40 ≠ 0#40) ∨
  ((opField w).toNat = 0x06 ∧ w.extractLsb' 0 32 ≠ 0#32) ∨
  ((opField w).toNat = 0x09 ∧ w.extractLsb' 32 24 ≠ 0#24)

/-- The state after a response and nothing else: the response registers, HOSTPOS = NONE, the Resp event (R11, R95). -/
def Responded (s t : State) (err : Byte) (val : Word32) : Prop :=
  t = { s with respErr := err, respVal := val, hostPos := .none, trace := s.trace ++ [.resp err val] }

/-- As Responded, and the regions may have changed as well. -/
def RespondedWithMemory (s t : State) (err : Byte) (val : Word32) : Prop :=
  t = { s with mem := t.mem, respErr := err, respVal := val, hostPos := .none, trace := s.trace ++ [.resp err val] }

/-- The byte offset lies in a pixel of the grid (R62). -/
def InPixel (c : Config) (col row off : Nat) : Prop := ∃ ch, ch < 3 ∧ off = (row * c.cols + col) * 3 + ch

end Sys2Proof.Machine
end

