-- ==== Sys2Proof/Certificates/Slice0/Obligations.lean ====
section
/-! DEFINITION. The statements for the provers. Each says, in terms of exec, step and the agents' turns, what a rule of spec/ says
of the block; the docstring names the rule. -/

open Sys2Proof Sys2Proof.Machine

/-! ### Encoding -/

/-- R130, R13: a HOST turn runs the decoded command. With none in flight the next word goes to CMD and its command takes its
first step; with one in flight that command takes its next step. And R12: a step is the turn of whichever agent has it, the
first one fixed, or with none fixed some agent (log 1). That a HOST turn with nothing in flight and no word left changes nothing
is the model's choice (log 2). -/
def Obligations.StepRunsTheDecodedCommand : Prop :=
  (∀ (s : State) (rest : List Agent) (i : Instr), s.sched = .host :: rest → WellFormed i = true →
    (∀ w ws, s.hostPos = .none → s.prog = w :: ws → decode w = .ok i →
      step s = exec i { s with sched := rest, cmd := w, prog := ws }) ∧
    (s.hostPos ≠ .none → decode s.cmd = .ok i → step s = exec i { s with sched := rest })) ∧
  (∀ (s : State) (a : Agent) (rest : List Agent), s.sched = a :: rest → step s = turn a { s with sched := rest }) ∧
  (∀ s : State, s.sched = [] → ∃ a, step s = turn a { s with drawn := s.drawn + 1 }) ∧
  (∀ (s : State) (rest : List Agent), s.sched = .host :: rest → s.hostPos = .none → s.prog = [] →
    step s = .next { s with sched := rest })

/-- 95_test_vectors.md 2.1: words of the spec decode to the commands it writes beside them. -/
def Obligations.VectorWordsDecode : Prop :=
  decode 0x0100000000000000#64 = .ok .beginCmd ∧
  decode 0x0207070102030000#64 = .ok (.setpix 7 7 1#8 2#8 3#8) ∧
  decode 0x0303021020300000#64 = .ok (.setpixp 3 2 0x102030#24) ∧
  decode 0x0400000000000000#64 = .ok .getpix ∧
  decode 0x0500390000000000#64 = .ok (.ldg 57) ∧
  decode 0x0600BFAA00000000#64 = .ok (.stg 191 0xAA#8) ∧
  decode 0x0700000000000000#64 = .ok .showCmd ∧
  decode 0x0800000000000000#64 = .ok .bufwait ∧
  decode 0x090000003F000000#64 = .ok (.setbri 0x3F000000#32) ∧
  decode 0x0A00000000000000#64 = .ok .getbri ∧
  decode 0x0B00000000000000#64 = .error (.reservedOpcode 0x0B#8) ∧
  decode 0x0208000102030001#64 = .error (.mustBeZero 0x02#8)

/-- R91, R92: no bit of any encoding is dropped. -/
def Obligations.DecodeOfEncode : Prop := ∀ i : Instr, WellFormed i = true → decode (encode i) = .ok i

/-- R90 to R93: every legal word is the one word of a well-formed command. -/
def Obligations.EncodeOfDecode : Prop := ∀ (w : Command) (i : Instr), decode w = .ok i → WellFormed i = true ∧ encode i = w

/-- R94: exactly the words with a reserved opcode or a set must-be-zero bit are illegal. A step that issues one puts it in CMD,
answers CMD_ERR and changes nothing else, and so does running one that stands in CMD. -/
def Obligations.IllegalWordsRaiseCmdErr : Prop :=
  (∀ w : Command, (∃ e, decode w = .error e) ↔ IllegalWord w) ∧
  (∀ (s : State) (rest : List Agent) (w : Command) (ws : List Command),
    s.sched = .host :: rest → s.hostPos = .none → s.prog = w :: ws → IllegalWord w →
    ∃ t, step s = .next t ∧ Responded { s with sched := rest, cmd := w, prog := ws } t 3#8 0#32) ∧
  (∀ s : State, IllegalWord s.cmd → ∃ t, runCommand s = .next t ∧ Responded s t 3#8 0#32)

/-- spec/opcode_table.json: the decoder accepts exactly the words of the table's rows, each under its row's mnemonic, and no
word belongs to two rows. -/
def Obligations.OpcodeRowsAreTheDecoder : Prop :=
  (∀ (w : Command) (i : Instr), decode w = .ok i → ∃ row ∈ opcodeRows, row.mnemonic = i.mnemonic ∧ row.covers w = true) ∧
  (∀ (w : Command), ∀ row ∈ opcodeRows, row.covers w = true → ∃ i, decode w = .ok i ∧ row.mnemonic = i.mnemonic) ∧
  (∀ (w : Command), ∀ row ∈ opcodeRows, ∀ row' ∈ opcodeRows, row.covers w = true → row'.covers w = true → row = row')

/-! ### The Frame Buffer Manager's commands -/

/-- R131, R62: SETPIX inside the grid writes the three bytes of the pixel, from (row * COLS + col) * 3 up, responds (0, 0), and
changes nothing else. -/
def Obligations.SetpixWritesThePixel : Prop :=
  ∀ (s : State) (col row : Nat) (r g b : Byte), s.cfg.Ok → MemoryWf s → col < s.cfg.cols → row < s.cfg.rows →
    ∃ t, exec (.setpix col row r g b) s = .next t ∧ MemoryWf t ∧ RespondedWithMemory s t 0#8 0#32 ∧
      ∀ reg off, t.byteAt reg off =
        if reg = .grid ∧ off = (row * s.cfg.cols + col) * 3 then some r
        else if reg = .grid ∧ off = (row * s.cfg.cols + col) * 3 + 1 then some g
        else if reg = .grid ∧ off = (row * s.cfg.cols + col) * 3 + 2 then some b
        else s.byteAt reg off

/-- R132: SETPIXP inside the grid writes R = pix[23:16], G = pix[15:8], B = pix[7:0] to the pixel's three bytes, responds
(0, 0), and changes nothing else; and it leaves the state SETPIX of the same channels leaves. -/
def Obligations.SetpixpWritesThePixel : Prop :=
  (∀ (s : State) (col row : Nat) (pix : BitVec 24), s.cfg.Ok → MemoryWf s → col < s.cfg.cols → row < s.cfg.rows →
    ∃ t, exec (.setpixp col row pix) s = .next t ∧ MemoryWf t ∧ RespondedWithMemory s t 0#8 0#32 ∧
      ∀ reg off, t.byteAt reg off =
        if reg = .grid ∧ off = (row * s.cfg.cols + col) * 3 then some (BitVec.ofNat 8 (pix.toNat / 65536))
        else if reg = .grid ∧ off = (row * s.cfg.cols + col) * 3 + 1 then some (BitVec.ofNat 8 (pix.toNat / 256))
        else if reg = .grid ∧ off = (row * s.cfg.cols + col) * 3 + 2 then some (BitVec.ofNat 8 pix.toNat)
        else s.byteAt reg off) ∧
  (∀ (s : State) (col row : Nat) (r g b : Byte),
    exec (.setpixp col row (r ++ g ++ b)) s = exec (.setpix col row r g b) s)

/-- R243: an out-of-range SETPIX, SETPIXP, LDG or STG is ignored whole and signalled: RANGE_ERR, nothing else changes. -/
def Obligations.RangeErrIgnoresTheAccess : Prop :=
  ∀ (s : State) (col row off : Nat) (r g b v : Byte) (pix : BitVec 24),
    (s.cfg.cols ≤ col ∨ s.cfg.rows ≤ row →
      (∃ t, exec (.setpix col row r g b) s = .next t ∧ Responded s t 2#8 0#32) ∧
      (∃ t, exec (.setpixp col row pix) s = .next t ∧ Responded s t 2#8 0#32)) ∧
    (s.cfg.gridBytes ≤ off →
      (∃ t, exec (.ldg off) s = .next t ∧ Responded s t 2#8 0#32) ∧
      (∃ t, exec (.stg off v) s = .next t ∧ Responded s t 2#8 0#32))

/-- R134: LDG inside the grid answers the byte at its offset, zero-extended, and changes nothing but the response. -/
def Obligations.LdgAnswersTheGridByte : Prop :=
  ∀ (s : State) (off : Nat), s.cfg.Ok → off < s.cfg.gridBytes →
    ∃ v t, s.byteAt .grid off = some v ∧ exec (.ldg off) s = .next t ∧ Responded s t 0#8 (BitVec.ofNat 32 v.toNat)

/-- R135: STG inside the grid writes the one byte at its offset, responds (0, 0), and changes nothing else. -/
def Obligations.StgWritesOneGridByte : Prop :=
  ∀ (s : State) (off : Nat) (v : Byte), s.cfg.Ok → MemoryWf s → off < s.cfg.gridBytes →
    ∃ t, exec (.stg off v) s = .next t ∧ MemoryWf t ∧ RespondedWithMemory s t 0#8 0#32 ∧
      ∀ reg off', t.byteAt reg off' = if reg = .grid ∧ off' = off then some v else s.byteAt reg off'

/-- R135's corner case: three STGs to base, base + 1, base + 2, where base is (row * COLS + col) * 3 (R62), leave the regions one
SETPIX leaves. -/
def Obligations.ThreeStgsEqualOneSetpix : Prop :=
  ∀ (s : State) (col row : Nat) (r g b : Byte), s.cfg.Ok → col < s.cfg.cols → row < s.cfg.rows →
    ∃ t1 t2 t3 u, exec (.stg ((row * s.cfg.cols + col) * 3) r) s = .next t1 ∧
      exec (.stg ((row * s.cfg.cols + col) * 3 + 1) g) t1 = .next t2 ∧
      exec (.stg ((row * s.cfg.cols + col) * 3 + 2) b) t2 = .next t3 ∧
      exec (.setpix col row r g b) s = .next u ∧ t3.mem = u.mem

/-- R133: GETPIX answers the handle 0 and touches no region and no flag; its word is OP 0x04 and zeros, and any other word with
that OP is illegal. -/
def Obligations.GetpixAnswersTheHandle : Prop :=
  (∀ s : State, ∃ t, exec .getpix s = .next t ∧ Responded s t 0#8 0#32) ∧
  decode 0x0400000000000000#64 = .ok .getpix ∧
  (∀ w : Command, opField w = 0x04#8 → w ≠ 0x0400000000000000#64 → ∃ e, decode w = .error e)

/-- R136: BUFWAIT answers swap_pending and changes nothing but the response; only the HOST's own SHOW can turn a 0 into a 1. -/
def Obligations.BufwaitAnswersSwapPending : Prop :=
  (∀ s : State, ∃ t, exec .bufwait s = .next t ∧ Responded s t 0#8 (if s.swapPending then 1#32 else 0#32)) ∧
  (∀ (s t : State) (a : Agent), turn a s = .next t → s.swapPending = false → t.swapPending = true →
    a = .host ∧ s.hostPos = .show2 ∧ decode s.cmd = .ok .showCmd)

/-- R137, R29: GETBRI answers BRIGHT and changes nothing but the response; BRIGHT itself is changed by SETBRI alone, to the clamped
operand: no other command's step changes it, and no other agent's turn. -/
def Obligations.GetbriAnswersTheClampedValue : Prop :=
  (∀ s : State, ∃ t, exec .getbri s = .next t ∧ Responded s t 0#8 s.bright) ∧
  (∀ (s t : State) (i : Instr), exec i s = .next t → t.bright = s.bright ∨ ∃ f, i = .setbri f ∧ t.bright = clamp f) ∧
  (∀ (s t : State) (a : Agent), turn a s = .next t → t.bright ≠ s.bright →
    a = .host ∧ ∃ f, decode t.cmd = .ok (.setbri f) ∧ t.bright = clamp f)

/-- The model's own choice (log 5), for a case to which R9, R242 and U9 give no meaning: on a configuration that is not CFG_OK,
SHOW and SETBRI are refused by name, LDG and STG of a byte inside the geometry's grid and beyond the region's capacity fault by
name, and so do SETPIX and SETPIXP of a pixel with a byte beyond the capacity or, with BPP below 3, beyond GRID_BYTES, at the
first byte that the region does not have. -/
def Obligations.BadConfigurationStops : Prop :=
  ∀ (s : State) (f : Word32) (off col row : Nat) (v r g b : Byte) (pix : BitVec 24), ¬ s.cfg.Ok →
    exec .showCmd s = .refused .configNotOk ∧ exec (.setbri f) s = .refused .configNotOk ∧
    (off < s.cfg.gridBytes → s.cfg.capGrid ≤ off →
      exec (.ldg off) s = .fault (.outsideRegion .grid off) ∧ exec (.stg off v) s = .fault (.outsideRegion .grid off)) ∧
    (col < s.cfg.cols → row < s.cfg.rows → min s.cfg.gridBytes s.cfg.capGrid ≤ (row * s.cfg.cols + col) * 3 + 2 →
      let first := max ((row * s.cfg.cols + col) * 3) (min s.cfg.gridBytes s.cfg.capGrid)
      exec (.setpix col row r g b) s = .fault (.outsideRegion .grid first) ∧
      exec (.setpixp col row pix) s = .fault (.outsideRegion .grid first))

/-! ### The Bitplane Encoder and SHOW -/

/-- R150: Encode puts at off(r, k, p) the data byte of the pixel at (COL_AT(p), r) and behind it the same byte with the clock
bit; and every byte of the buffer is one of these, for exactly one row, plane and position. -/
def Obligations.EncodeAssignsEveryByte : Prop :=
  ∀ (c : Config) (grid : Nat → Byte), c.Ok →
    (∀ r k p, r < c.rows → k < c.bitDepth → p < c.cols →
      let R := grid ((r * c.cols + c.colAt p) * 3 + 0)
      let G := grid ((r * c.cols + c.colAt p) * 3 + 1)
      let B := grid ((r * c.cols + c.colAt p) * 3 + 2)
      let d := c.idleBits ||| (BitVec.ofNat 8 (R.toNat / 2 ^ k % 2) <<< c.rPos)
        ||| (BitVec.ofNat 8 (G.toNat / 2 ^ k % 2) <<< c.gPos) ||| (BitVec.ofNat 8 (B.toNat / 2 ^ k % 2) <<< c.bPos)
      encodeAt c grid (((r * c.bitDepth + k) * c.cols + p) * 2) = d ∧
      encodeAt c grid (((r * c.bitDepth + k) * c.cols + p) * 2 + 1) = d ||| (1#8 <<< c.clkPos)) ∧
    (∀ off, off < c.bsBytes → ∃! x : Nat × Nat × Nat × Nat,
      x.1 < c.rows ∧ x.2.1 < c.bitDepth ∧ x.2.2.1 < c.cols ∧ x.2.2.2 < 2 ∧
      off = ((x.1 * c.bitDepth + x.2.1) * c.cols + x.2.2.1) * 2 + x.2.2.2)

/-- R160 item 2: with every channel 2^k, plane k is on for every column of every row and every other plane is off. -/
def Obligations.EncodeSinglePlane : Prop :=
  ∀ (c : Config) (k r j p : Nat), c.Ok → k < c.bitDepth → r < c.rows → j < c.bitDepth → p < c.cols →
    encodeAt c (fun _ => BitVec.ofNat 8 (2 ^ k)) (pairOff c r j p) =
      if j = k then c.idleBits ||| (1#8 <<< c.rPos) ||| (1#8 <<< c.gPos) ||| (1#8 <<< c.bPos) else c.idleBits

/-- R160 item 3: with every pixel black but (0, 0) = (255, 0, 0), the data byte of column 0 of row 0 has the red bit in every
plane and every other data byte is blank. -/
def Obligations.EncodeOneRedPixel : Prop :=
  ∀ (c : Config) (r k p : Nat), c.Ok → r < c.rows → k < c.bitDepth → p < c.cols →
    encodeAt c (fun off => if off = 0 then 255#8 else 0#8) (pairOff c r k p) =
      if r = 0 ∧ c.colAt p = 0 then c.idleBits ||| (1#8 <<< c.rPos) else c.idleBits

/-- R160 items 4 and 5: the black grid gives the blank pair throughout; and of every grid's pairs, the data byte has the clock
bit clear and the clock byte is the data byte with it set. -/
def Obligations.EncodeBlankAndClock : Prop :=
  ∀ (c : Config) (grid : Nat → Byte) (pair : Nat), c.Ok →
    (encodeAt c (fun _ => 0#8) (2 * pair) = c.idleBits ∧
      encodeAt c (fun _ => 0#8) (2 * pair + 1) = c.idleBits ||| (1#8 <<< c.clkPos)) ∧
    (encodeAt c grid (2 * pair)).getLsbD c.clkPos = false ∧
    encodeAt c grid (2 * pair + 1) = encodeAt c grid (2 * pair) ||| (1#8 <<< c.clkPos)

/-- R160 item 6: changing a pixel changes no byte but those of its column's pairs in its row; changing one channel bit k < D
changes the data byte of exactly one pair. -/
def Obligations.EncodeIsLocal : Prop :=
  ∀ (c : Config) (g g' : Nat → Byte) (col row : Nat), c.Ok → col < c.cols → row < c.rows →
    ((∀ off, ¬ InPixel c col row off → g' off = g off) →
      ∀ r k p, r < c.rows → k < c.bitDepth → p < c.cols → ¬ (r = row ∧ c.colAt p = col) →
        encodeAt c g' (pairOff c r k p) = encodeAt c g (pairOff c r k p) ∧
        encodeAt c g' (pairOff c r k p + 1) = encodeAt c g (pairOff c r k p + 1)) ∧
    (∀ ch k, ch < 3 → k < c.bitDepth →
      (∀ off, g' off = if off = (row * c.cols + col) * 3 + ch then g off ^^^ (1#8 <<< k) else g off) →
      ∃! x : Nat × Nat × Nat, x.1 < c.rows ∧ x.2.1 < c.bitDepth ∧ x.2.2 < c.cols ∧
        encodeAt c g' (pairOff c x.1 x.2.1 x.2.2) ≠ encodeAt c g (pairOff c x.1 x.2.1 x.2.2))

/-- R155: SHOW's three steps, each with all it changes: S1 retracts and latches the target, S2 writes Encode(GRID) into
BS[ENC_TARGET] and no other byte, S3 requests the swap and responds. -/
def Obligations.ShowRunsInThreeSteps : Prop :=
  ∀ s : State, s.cfg.Ok → MemoryWf s →
    (s.hostPos = .none →
      exec .showCmd s = .next { s with swapPending := false, encTarget := !s.active, hostPos := .show1 }) ∧
    (s.hostPos = .show1 → ∃ t, exec .showCmd s = .next t ∧ t = { s with mem := t.mem, hostPos := .show2 } ∧ MemoryWf t ∧
      ∀ reg off, t.byteAt reg off =
        if reg = Region.bs s.encTarget ∧ off < s.cfg.bsBytes then some (encodeAt s.cfg (gridOf s.mem.grid) off)
        else s.byteAt reg off) ∧
    (s.hostPos = .show2 → ∃ t, exec .showCmd s = .next t ∧ Responded { s with swapPending := true } t 0#8 0#32)

/-- R156, R73: whatever CHAIN, REFRESH and ENV turns fall between SHOW's steps, SHOW completes, the buffer that was active stays
active and untouched, the other one holds Encode of the grid as SHOW found it, and the swap is requested. -/
def Obligations.ShowIsSafeUnderInterleaving : Prop :=
  ∀ (s : State) (as bs : List Agent), Inv s → AboutToIssue s .showCmd → (∀ a ∈ as ++ bs, a ≠ .host) →
    ∃ t, turns (.host :: as ++ .host :: bs ++ [.host]) s = .next t ∧
      t.hostPos = .none ∧ t.respErr = 0#8 ∧ t.respVal = 0#32 ∧ t.swapPending = true ∧
      t.active = s.active ∧ t.mem.get (Region.bs s.active) = s.mem.get (Region.bs s.active) ∧ t.mem.grid = s.mem.grid ∧
      ∀ off, off < s.cfg.bsBytes →
        t.byteAt (Region.bs (!s.active)) off = some (encodeAt s.cfg (gridOf s.mem.grid) off)

/-- R69, R158, R36 item 4: no command but BEGIN writes a byte of the active buffer. -/
def Obligations.ActiveBufferIsNeverWritten : Prop :=
  ∀ (s t : State) (i : Instr), Inv s → exec i s = .next t → i ≠ .beginCmd →
    t.mem.get (Region.bs s.active) = s.mem.get (Region.bs s.active)

/-! ### The tables -/

/-- R170: BuildAddr has ROW_CODE(r) at ((r * D + k) * ADDR_REPEAT) + j, and every one of the table's D * ROWS * ADDR_REPEAT bytes
is one of these, for exactly one row, plane and repetition. -/
def Obligations.AddressTableLayout : Prop :=
  ∀ c : Config, c.Ok →
    c.addrBytes = c.bitDepth * c.rows * c.addrRepeat ∧
    (∀ r k j, r < c.rows → k < c.bitDepth → j < c.addrRepeat →
      buildAddrAt c (((r * c.bitDepth + k) * c.addrRepeat) + j) = c.rowCode r) ∧
    (∀ off, off < c.addrBytes → ∃! x : Nat × Nat × Nat,
      x.1 < c.rows ∧ x.2.1 < c.bitDepth ∧ x.2.2 < c.addrRepeat ∧
      off = ((x.1 * c.bitDepth + x.2.1) * c.addrRepeat) + x.2.2)

/-- R180: the periods of a row double from plane to plane, sum to ROW_SLICE at every brightness, and fit an entry. -/
def Obligations.PeriodsFillTheRowSlice : Prop :=
  (∀ c : Config, c.Ok →
    (∀ k, periodOf c k = c.tUnit * 2 ^ k ∧ periodOf c (k + 1) = 2 * periodOf c k) ∧
    ((List.range c.bitDepth).map (periodOf c)).sum = c.tUnit * (2 ^ c.bitDepth - 1) ∧
    periodOf c (c.bitDepth - 1) ≤ 2 ^ c.tw - 1) ∧
  (List.range 8).map (periodOf .ref) = [256, 512, 1024, 2048, 4096, 8192, 16384, 32768]

/-- R181: C0 is the floor of the exact product of the stored brightness and T_UNIT; it is at most T_UNIT, 0 at 0.0 and T_UNIT at
1.0. -/
def Obligations.C0IsTheExactFloor : Prop :=
  ∀ (c : Config) (b : Word32), c.Ok → isBrightness b = true →
    (c0Of c b : ℤ) = ⌊f32Value b * (c.tUnit : ℚ)⌋ ∧ c0Of c b ≤ c.tUnit ∧
    c0Of c 0x00000000#32 = 0 ∧ c0Of c 0x3F800000#32 = c.tUnit

/-- R184 items 1 to 6, of the compare values: doubling, row sum and its distance from b * ROW_SLICE, containment, blanking at 0,
monotone in the brightness, and 0 below 1 / T_UNIT. -/
def Obligations.CompareValueLaws : Prop :=
  ∀ (c : Config) (b b' : Word32), c.Ok → isBrightness b = true → isBrightness b' = true →
    (∀ k, compareOf (c0Of c b) (k + 1) = 2 * compareOf (c0Of c b) k ∧ compareOf (c0Of c b) k ≤ periodOf c k ∧
      compareOf (c0Of c 0#32) k = 0) ∧
    ((List.range c.bitDepth).map (compareOf (c0Of c b))).sum = c0Of c b * (2 ^ c.bitDepth - 1) ∧
    |f32Value b * ((c.tUnit * (2 ^ c.bitDepth - 1) : ℕ) : ℚ) - (((List.range c.bitDepth).map (compareOf (c0Of c b))).sum : ℚ)| <
      ((2 ^ c.bitDepth - 1 : ℕ) : ℚ) ∧
    (f32Value b ≤ f32Value b' → c0Of c b ≤ c0Of c b') ∧ (f32Value b < 1 / (c.tUnit : ℚ) → c0Of c b = 0)

/-- R185: Clamp's four cases, said of the pattern's fields; what it gives is always a brightness in [0, 1]; non-negative finite
patterns order as their real values do; and positive subnormals are kept and give C0 = 0. -/
def Obligations.ClampLandsInRange : Prop :=
  ∀ f : Word32,
    clamp f = (if f.toNat / 2 ^ 23 % 256 = 0xFF ∧ f.toNat % 2 ^ 23 ≠ 0 then 0x00000000#32
      else if f.toNat / 2 ^ 31 = 1 then 0x00000000#32
      else if 0x3F800000 < f.toNat % 2 ^ 31 then 0x3F800000#32
      else f) ∧
    isBrightness (clamp f) = true ∧ (isBrightness f = true → clamp f = f) ∧
    (∀ g : Word32, f.toNat < 0x7F800000 → g.toNat < 0x7F800000 → (f32Value f ≤ f32Value g ↔ f.toNat ≤ g.toNat)) ∧
    (∀ c : Config, c.Ok → f.toNat < 2 ^ 23 → clamp f = f ∧ c0Of c f = 0)

/-- R186: SETBRI's steps, each with all it changes: T0 stores the clamped brightness and latches C0; W(2s) writes the period
entry s, W(2s+1) the compare entry s, whole, and nothing else; the last one responds. -/
def Obligations.SetbriRunsEntryByEntry : Prop :=
  ∀ (s : State) (f : Word32), s.cfg.Ok → MemoryWf s →
    (s.hostPos = .none → exec (.setbri f) s = .next
      { s with bright := clamp f, c0 := BitVec.ofNat 32 (c0Of s.cfg (clamp f)), hostPos := .bri 0 }) ∧
    (∀ e, e < s.cfg.ttEntries →
      (s.hostPos = .bri (2 * e) → ∃ t, exec (.setbri f) s = .next t ∧ MemoryWf t ∧
        t = { s with mem := t.mem, hostPos := .bri (2 * e + 1) } ∧
        t.entryAt .periodTbl e = some (s.cfg.tUnit * 2 ^ (e % s.cfg.bitDepth)) ∧
        (∀ j, j ≠ e → t.entryAt .periodTbl j = s.entryAt .periodTbl j) ∧
        (∀ reg off, (reg ≠ .periodTbl ∨ off < e * s.cfg.entryBytes ∨ (e + 1) * s.cfg.entryBytes ≤ off) →
          t.byteAt reg off = s.byteAt reg off)) ∧
      (s.hostPos = .bri (2 * e + 1) → s.c0.toNat ≤ s.cfg.tUnit → ∃ t, exec (.setbri f) s = .next t ∧ MemoryWf t ∧
        t.entryAt .compareTbl e = some (s.c0.toNat * 2 ^ (e % s.cfg.bitDepth)) ∧
        (∀ j, j ≠ e → t.entryAt .compareTbl j = s.entryAt .compareTbl j) ∧
        (∀ reg off, (reg ≠ .compareTbl ∨ off < e * s.cfg.entryBytes ∨ (e + 1) * s.cfg.entryBytes ≤ off) →
          t.byteAt reg off = s.byteAt reg off) ∧
        (if e + 1 = s.cfg.ttEntries then RespondedWithMemory s t 0#8 0#32
          else t = { s with mem := t.mem, hostPos := .bri (2 * e + 2) })))

/-- R186, R187: whatever turns of other agents fall between SETBRI's 1 + 2 * TT_ENTRIES steps, it completes, BRIGHT is the clamped
operand, every entry is new, and no other region is touched. -/
def Obligations.SetbriRebuildsUnderInterleaving : Prop :=
  ∀ (s : State) (f : Word32) (as : List Agent), Inv s → AboutToIssue s (.setbri f) →
    as.count .host = 1 + 2 * s.cfg.ttEntries →
    ∃ t, turns as s = .next t ∧ t.hostPos = .none ∧ t.respErr = 0#8 ∧ t.respVal = 0#32 ∧
      t.bright = clamp f ∧ t.c0 = BitVec.ofNat 32 (c0Of s.cfg (clamp f)) ∧
      (∀ i, i < s.cfg.ttEntries → t.entryAt .periodTbl i = some (s.cfg.tUnit * 2 ^ (i % s.cfg.bitDepth)) ∧
        t.entryAt .compareTbl i = some (c0Of s.cfg (clamp f) * 2 ^ (i % s.cfg.bitDepth))) ∧
      t.mem.grid = s.mem.grid ∧ t.mem.bs0 = s.mem.bs0 ∧ t.mem.bs1 = s.mem.bs1 ∧ t.mem.addrTbl = s.mem.addrTbl

/-- R187 item 4: at every moment of a rebuild the entries its writes have reached are new, and while none is in flight a RUNNING
chain's table is wholly that of C0. Every turn of every agent keeps it. -/
def Obligations.RebuildIsNewBelowItsPosition : Prop :=
  ∀ (s t : State) (a : Agent), Inv s → RebuildOk s → turn a s = .next t → RebuildOk t

/-! ### BEGIN -/

/-- R232: BEGIN where CFG_OK holds: every write it makes, and that it makes no other. BRIGHT is a brightness, as R29 says it
always is. For a TW that is no multiple of 8, the UNIT of DESC_PERIOD and DESC_COMPARE, the bytes of an entry, is the model's
choice (log 7): R32 gives TW/8. -/
def Obligations.BeginBuildsBlanksAndArms : Prop :=
  ∀ s : State, s.cfg.Ok → MemoryWf s → isBrightness s.bright = true →
    ∃ t, exec .beginCmd s = .next t ∧ MemoryWf t ∧
      (∀ off, off < s.cfg.addrBytes →
        t.byteAt .addrTbl off = some (s.cfg.rowCode (off / s.cfg.addrRepeat / s.cfg.bitDepth))) ∧
      (∀ i, i < s.cfg.ttEntries → t.entryAt .periodTbl i = some (s.cfg.tUnit * 2 ^ (i % s.cfg.bitDepth)) ∧
        t.entryAt .compareTbl i = some (c0Of s.cfg s.bright * 2 ^ (i % s.cfg.bitDepth))) ∧
      (∀ a off, off < s.cfg.bsBytes → t.byteAt (Region.bs a) off =
        some (if off % 2 = 0 then s.cfg.idleBits else s.cfg.idleBits ||| (1#8 <<< s.cfg.clkPos))) ∧
      t.mem.grid = s.mem.grid ∧
      t = { s with
        mem := t.mem
        c0 := BitVec.ofNat 32 (c0Of s.cfg s.bright)
        desc :=
          { addr := ⟨.addrTbl, .addrPort, 1, s.cfg.addrRepeat, s.cfg.nsf, .descPeriod⟩
            period := ⟨.periodTbl, .tmrPeriod, s.cfg.entryBytes, 1, s.cfg.nsf, .descCompare⟩
            compare := ⟨.compareTbl, .tmrCompare, s.cfg.entryBytes, 1, s.cfg.nsf, .descData⟩
            data := ⟨.bs0, .dataPort, 1, s.cfg.slice, s.cfg.nsf, .descAddr⟩ }
        active := false
        swapPending := false
        irqPending := false
        sf := 0
        phase := .a
        idx := 0
        runState := .running
        respErr := 0#8
        respVal := 0#32
        hostPos := .none
        trace := s.trace ++ [.resp 0#8 0#32] }

/-- R231: BEGIN on a configuration that is not CFG_OK stops the chain, reports CFG_ERR, and writes no table, buffer, descriptor,
flag or port. -/
def Obligations.BeginRefusesABadConfiguration : Prop :=
  ∀ s : State, ¬ s.cfg.Ok →
    ∃ t, exec .beginCmd s = .next t ∧ Responded { s with runState := .cfgFault, irqPending := false } t 1#8 0#32

/-! ### The transfer chain -/

/-- R202: XA fetches byte SF * ADDR_REPEAT + IDX of the Address Table, which is ROW_CODE(row(SF)), drives it, counts it, and after
ADDR_REPEAT of them moves on to the period; nothing else changes. -/
def Obligations.XaDrivesTheRowCode : Prop :=
  ∀ s : State, Inv s → s.runState = .running → s.phase = .a → hold s = false →
    s.byteAt .addrTbl (s.sf * s.cfg.addrRepeat + s.idx) = some (s.cfg.rowCode (s.cfg.rowOf s.sf)) ∧
    chainTurn s = .next { s with
      addrPort := s.cfg.rowCode (s.cfg.rowOf s.sf)
      trace := s.trace ++ [.addr (s.cfg.rowCode (s.cfg.rowOf s.sf))]
      phase := if s.idx + 1 = s.cfg.addrRepeat then .p else .a
      idx := if s.idx + 1 = s.cfg.addrRepeat then 0 else s.idx + 1 }

/-- R203: XP drives period entry SF, which is the period of the sub-frame's plane, T_UNIT * 2^plane(SF), whatever a rebuild is
doing. -/
def Obligations.XpDrivesThePlanePeriod : Prop :=
  ∀ s : State, Inv s → s.runState = .running → s.phase = .p →
    s.entryAt .periodTbl s.sf = some (s.cfg.tUnit * 2 ^ s.cfg.planeOf s.sf) ∧
    chainTurn s = .next { s with
      tmrPeriod := BitVec.ofNat 32 (s.cfg.tUnit * 2 ^ s.cfg.planeOf s.sf)
      trace := s.trace ++ [.period (BitVec.ofNat 32 (s.cfg.tUnit * 2 ^ s.cfg.planeOf s.sf))]
      phase := .c }

/-- R204: XC drives the compare entry as it stands; it is at most the period. -/
def Obligations.XcDrivesTheCompareEntry : Prop :=
  ∀ s : State, Inv s → s.runState = .running → s.phase = .c →
    ∃ v, s.entryAt .compareTbl s.sf = some v ∧ v ≤ s.cfg.tUnit * 2 ^ s.cfg.planeOf s.sf ∧
      chainTurn s = .next { s with
        tmrCompare := BitVec.ofNat 32 v
        trace := s.trace ++ [.compare (BitVec.ofNat 32 v)]
        phase := .d
        idx := 0 }

/-- R205: XD drives byte SF * SLICE + IDX of the active buffer, counts it, and after SLICE of them waits for the slot's end. -/
def Obligations.XdDrivesTheActiveBuffer : Prop :=
  ∀ s : State, Inv s → s.runState = .running → s.phase = .d →
    ∃ v, s.byteAt (Region.bs s.active) (s.sf * s.cfg.slice + s.idx) = some v ∧
      chainTurn s = .next { s with
        dataPort := v
        trace := s.trace ++ [.data v]
        idx := s.idx + 1
        phase := if s.idx + 1 = s.cfg.slice then .w else .d }

/-- R206: ADV goes on to the next sub-frame, and at the last one wraps to 0 and raises the refresh interrupt. The next sub-frame
is the next bit-plane of the row, and after the last plane plane 0 of the next row. -/
def Obligations.AdvAdvancesAndWraps : Prop :=
  ∀ s : State, Inv s → s.runState = .running → s.phase = .w →
    (if s.cfg.planeOf s.sf = s.cfg.bitDepth - 1
      then s.cfg.planeOf (s.sf + 1) = 0 ∧ s.cfg.rowOf (s.sf + 1) = s.cfg.rowOf s.sf + 1
      else s.cfg.planeOf (s.sf + 1) = s.cfg.planeOf s.sf + 1 ∧ s.cfg.rowOf (s.sf + 1) = s.cfg.rowOf s.sf) ∧
    chainTurn s = .next (if s.sf = s.cfg.nsf - 1 then
        { s with sf := 0, irqPending := true, trace := s.trace ++ [.irq], phase := .a, idx := 0 }
      else { s with sf := s.sf + 1, phase := .a, idx := 0 })

/-- R207: while the interrupt is pending at the boundary XA is not enabled; REFRESH lifts the hold, and so does a BEGIN. That a
CHAIN turn given meanwhile changes nothing is the model's choice (log 2): the spec gives no turn to an agent with no enabled
step. -/
def Obligations.HoldUntilRefreshOrBegin : Prop :=
  ∀ s : State, Inv s → s.runState = .running → s.irqPending = true →
    chainTurn s = .next s ∧
    (∃ t, refreshTurn s = .next t ∧ hold t = false ∧ t.irqPending = false) ∧
    (∃ t, exec .beginCmd s = .next t ∧ hold t = false ∧ t.irqPending = false)

/-- R212: from the start of a sub-frame, with no rebuild in flight, the CHAIN alone emits exactly SubFrame(SF, ACTIVE), and moves
nothing but its position and the four latches. -/
def Obligations.SubFrameTrace : Prop :=
  ∀ s : State, Inv s → ComparesBuilt s → s.runState = .running → s.irqPending = false → s.phase = .a → s.idx = 0 →
    ∃ t, chainTurns (s.cfg.addrRepeat + 2 + s.cfg.slice) s = .next t ∧
      t = { s with
        trace := s.trace ++ subFrame s s.sf s.active
        phase := .w
        idx := s.cfg.slice
        addrPort := t.addrPort
        dataPort := t.dataPort
        tmrPeriod := t.tmrPeriod
        tmrCompare := t.tmrCompare }

/-- R212: from the start of a scan cycle, with no rebuild in flight, the CHAIN alone emits exactly Cycle(ACTIVE), ending with the
interrupt raised, and moves nothing but its position and the four latches. -/
def Obligations.ScanCycleTrace : Prop :=
  ∀ s : State, Inv s → ComparesBuilt s → s.runState = .running → s.irqPending = false → s.sf = 0 → s.phase = .a →
    s.idx = 0 →
    ∃ t, chainTurns (s.cfg.nsf * (s.cfg.addrRepeat + 2 + s.cfg.slice + 1)) s = .next t ∧
      t = { s with
        trace := s.trace ++ scanCycle s s.active
        irqPending := true
        addrPort := t.addrPort
        dataPort := t.dataPort
        tmrPeriod := t.tmrPeriod
        tmrCompare := t.tmrCompare }

/-- R32, R208: the CHAIN's steps are the generic unit transfer of the phase's descriptor: the model's two readings of the chain
agree (log 18). -/
def Obligations.ChainFollowsItsDescriptors : Prop :=
  ∀ s : State, Inv s → s.runState = .running → chainMove s = descriptorMove s

/-- R36 item 2: no CHAIN turn depends on the Pixel Grid: with another grid it does the same, and carries the other grid along. -/
def Obligations.ChainNeverReadsTheGrid : Prop :=
  ∀ (s : State) (m : Memory), chainTurn (s.setRegion .grid m) =
    match chainTurn s with
    | .next t => .next (t.setRegion .grid m)
    | .fault f => .fault f
    | .refused r => .refused r

/-! ### The refresh interrupt and the environment -/

/-- R246: REFRESH, enabled when RUNNING and pending: swap if, and only if, a swap is pending, clear the interrupt, acknowledge;
nothing else changes. That its turn changes nothing when it is not enabled is the model's choice (log 2): the spec gives it no
such turn. -/
def Obligations.RefreshSwapsIfPending : Prop :=
  ∀ s : State,
    (s.runState = .running ∧ s.irqPending = true →
      (s.swapPending = true → refreshTurn s = .next { s with
        active := !s.active
        desc := { s.desc with data := { s.desc.data with src := Region.bs (!s.active) } }
        swapPending := false
        irqPending := false
        trace := s.trace ++ [.ack true] }) ∧
      (s.swapPending = false → refreshTurn s = .next { s with
        irqPending := false
        trace := s.trace ++ [.ack false] })) ∧
    (¬ (s.runState = .running ∧ s.irqPending = true) → refreshTurn s = .next s)

/-- R244: the underrun strike, enabled while RUNNING, puts RUNSTATE at UNDERRUN_FAULT and leaves everything but the outputs. That
from then on no turn of CHAIN, REFRESH or ENV changes anything but the outputs or emits an event is the model's choice (log 12):
R244 leaves the chain's behaviour undefined. That ENV's turn outside RUNNING, and REFRESH's and ENV's turns in UNDERRUN_FAULT,
change nothing is the model's choice too (log 2): they have no enabled step there. Nor has the CHAIN in IDLE and CFG_FAULT (R201,
R242, R271), where a turn of it changes nothing and so emits nothing (log 2). -/
def Obligations.UnderrunStrikes : Prop :=
  (∀ s : State, s.runState = .running → ∃ t, envTurn s = .next t ∧
    t = { s with
      runState := .underrunFault, tmrPeriod := t.tmrPeriod, tmrCompare := t.tmrCompare
      addrPort := t.addrPort, dataPort := t.dataPort, drawn := t.drawn }) ∧
  (∀ s : State, s.runState ≠ .running → envTurn s = .next s) ∧
  (∀ s : State, s.runState = .idle ∨ s.runState = .cfgFault → chainTurn s = .next s) ∧
  (∀ (s : State) (a : Agent), s.runState = .underrunFault → a ≠ .host → ∃ t, turn a s = .next t ∧
    t = { s with
      tmrPeriod := t.tmrPeriod, tmrCompare := t.tmrCompare
      addrPort := t.addrPort, dataPort := t.dataPort, drawn := t.drawn })

/-! ### Who may change what -/

/-- R28, R233, R242: RUNSTATE is entered as R28's table says: RUNNING and CFG_FAULT by a BEGIN alone, UNDERRUN_FAULT by ENV alone
and from RUNNING, IDLE by reset alone. -/
def Obligations.RunStateChangesAsTabled : Prop :=
  ∀ (s t : State) (a : Agent), turn a s = .next t → t.runState ≠ s.runState →
    (a = .env ∧ s.runState = .running ∧ t.runState = .underrunFault) ∨
    (a = .host ∧ decode t.cmd = .ok .beginCmd ∧ t.runState = .running ∧ s.cfg.Ok) ∨
    (a = .host ∧ decode t.cmd = .ok .beginCmd ∧ t.runState = .cfgFault ∧ ¬ s.cfg.Ok)

/-- R24, R26: SF is written by the CHAIN's ADV, its step while PHASE = W, and BEGIN alone; ACTIVE by REFRESH, when a swap is pending,
and BEGIN alone. PHASE and IDX are written by the CHAIN and BEGIN alone: by every CHAIN step, as R202 to R206 write them, where
R24's words name ADV alone (log 20). -/
def Obligations.ScanPositionAndActiveHaveFewWriters : Prop :=
  ∀ (s t : State) (a : Agent), turn a s = .next t →
    (t.sf ≠ s.sf → (a = .chain ∧ s.phase = .w) ∨ (a = .host ∧ decode t.cmd = .ok .beginCmd)) ∧
    ((t.phase ≠ s.phase ∨ t.idx ≠ s.idx) →
      a = .chain ∨ (a = .host ∧ decode t.cmd = .ok .beginCmd)) ∧
    (t.active ≠ s.active →
      (a = .refresh ∧ s.swapPending = true ∧ s.irqPending = true) ∨ (a = .host ∧ decode t.cmd = .ok .beginCmd))

/-- R69, R35, R36 item 3: which command writes which region; and no other agent writes any. -/
def Obligations.RegionsHaveTheirWriters : Prop :=
  (∀ (s t : State) (a : Agent), turn a s = .next t → a ≠ .host → t.mem = s.mem) ∧
  (∀ (s t : State) (i : Instr), exec i s = .next t →
    (t.mem.grid = s.mem.grid ∨ ∃ col row r g b off v pix,
      i = .setpix col row r g b ∨ i = .setpixp col row pix ∨ i = .stg off v) ∧
    (t.mem.addrTbl = s.mem.addrTbl ∨ i = .beginCmd) ∧
    (t.mem.periodTbl = s.mem.periodTbl ∧ t.mem.compareTbl = s.mem.compareTbl ∨ i = .beginCmd ∨ ∃ f, i = .setbri f) ∧
    (t.mem.bs0 = s.mem.bs0 ∧ t.mem.bs1 = s.mem.bs1 ∨ i = .beginCmd ∨ i = .showCmd))

/-- R6, R15, R201: no turn changes the configuration, and a turn emits at most one event, after all earlier ones. -/
def Obligations.EventsAreAppendedOneAtATime : Prop :=
  ∀ (s t : State) (a : Agent), turn a s = .next t →
    t.cfg = s.cfg ∧ (t.trace = s.trace ∨ ∃ e, t.trace = s.trace ++ [e])

/-! ### Invariants -/

/-- R38: what the spec gives for reset, in the reference configuration; every byte of GRID reads 0, and no other region has a
value. -/
def Obligations.ResetIsAsTheTableSays : Prop :=
  State.reset.respVal = 0#32 ∧ State.reset.respErr = 0#8 ∧ State.reset.runState = .idle ∧
  State.reset.sf = 0 ∧ State.reset.phase = .a ∧ State.reset.idx = 0 ∧ State.reset.swapPending = false ∧
  State.reset.active = false ∧ State.reset.irqPending = false ∧ State.reset.bright = 0x3F800000#32 ∧
  State.reset.hostPos = .none ∧ (∀ off, State.reset.byteAt .grid off = some 0#8) ∧
  (∀ reg off, reg ≠ .grid → State.reset.byteAt reg off = none)

/-- The invariant holds at reset, in every configuration that is CFG_OK. It asks nothing there of the registers to which R38 gives
no value. -/
def Obligations.ResetMeetsTheInvariant : Prop := ∀ c : Config, c.Ok → Inv (State.resetOf c) ∧ RebuildOk (State.resetOf c)

/-- R36, R29, R30: every step of every agent keeps the invariant: memory in canonical form, the brightness in range and C0 with it
where it is in use, a SHOW's target the back buffer, and in a RUNNING state the tables built, compares within periods, the scan position in range, the
interrupt pending only at the boundary, and DESC_DATA.SRC = BS[ACTIVE]. -/
def Obligations.StepKeepsTheInvariant : Prop := ∀ s t : State, Inv s → step s = .next t → Inv t

/-- R16, R67: from a state that meets the invariant a step never stops: no access leaves its region, no fetch finds a byte
nothing has written, and no command is refused. -/
def Obligations.StepNeverStops : Prop := ∀ s : State, Inv s → ∃ t, step s = .next t
end

