-- ==== Sys2Proof/Laws/State.lean ====
section
/-! SUPPORT. For each shared update of State: what each field is afterwards, one lemma a field, so that no proof unfolds a record
update; and for the updates with a condition, the fields no branch of them touches. -/

namespace Sys2Proof.Machine

section
variable (e : Event) (s : State)
@[simp] theorem emit_cmd : (emit e s).cmd = s.cmd := rfl
@[simp] theorem emit_respVal : (emit e s).respVal = s.respVal := rfl
@[simp] theorem emit_respErr : (emit e s).respErr = s.respErr := rfl
@[simp] theorem emit_runState : (emit e s).runState = s.runState := rfl
@[simp] theorem emit_sf : (emit e s).sf = s.sf := rfl
@[simp] theorem emit_phase : (emit e s).phase = s.phase := rfl
@[simp] theorem emit_idx : (emit e s).idx = s.idx := rfl
@[simp] theorem emit_swapPending : (emit e s).swapPending = s.swapPending := rfl
@[simp] theorem emit_active : (emit e s).active = s.active := rfl
@[simp] theorem emit_irqPending : (emit e s).irqPending = s.irqPending := rfl
@[simp] theorem emit_bright : (emit e s).bright = s.bright := rfl
@[simp] theorem emit_c0 : (emit e s).c0 = s.c0 := rfl
@[simp] theorem emit_encTarget : (emit e s).encTarget = s.encTarget := rfl
@[simp] theorem emit_hostPos : (emit e s).hostPos = s.hostPos := rfl
@[simp] theorem emit_desc : (emit e s).desc = s.desc := rfl
@[simp] theorem emit_tmrPeriod : (emit e s).tmrPeriod = s.tmrPeriod := rfl
@[simp] theorem emit_tmrCompare : (emit e s).tmrCompare = s.tmrCompare := rfl
@[simp] theorem emit_addrPort : (emit e s).addrPort = s.addrPort := rfl
@[simp] theorem emit_dataPort : (emit e s).dataPort = s.dataPort := rfl
@[simp] theorem emit_mem : (emit e s).mem = s.mem := rfl
@[simp] theorem emit_cfg : (emit e s).cfg = s.cfg := rfl
@[simp] theorem emit_prog : (emit e s).prog = s.prog := rfl
@[simp] theorem emit_sched : (emit e s).sched = s.sched := rfl
@[simp] theorem emit_drawn : (emit e s).drawn = s.drawn := rfl
@[simp] theorem emit_trace : (emit e s).trace = s.trace ++ [e] := rfl
end

section
variable (err : Byte) (val : Word32) (s : State)
@[simp] theorem respond_cmd : (respond err val s).cmd = s.cmd := rfl
@[simp] theorem respond_respVal : (respond err val s).respVal = val := rfl
@[simp] theorem respond_respErr : (respond err val s).respErr = err := rfl
@[simp] theorem respond_runState : (respond err val s).runState = s.runState := rfl
@[simp] theorem respond_sf : (respond err val s).sf = s.sf := rfl
@[simp] theorem respond_phase : (respond err val s).phase = s.phase := rfl
@[simp] theorem respond_idx : (respond err val s).idx = s.idx := rfl
@[simp] theorem respond_swapPending : (respond err val s).swapPending = s.swapPending := rfl
@[simp] theorem respond_active : (respond err val s).active = s.active := rfl
@[simp] theorem respond_irqPending : (respond err val s).irqPending = s.irqPending := rfl
@[simp] theorem respond_bright : (respond err val s).bright = s.bright := rfl
@[simp] theorem respond_c0 : (respond err val s).c0 = s.c0 := rfl
@[simp] theorem respond_encTarget : (respond err val s).encTarget = s.encTarget := rfl
@[simp] theorem respond_hostPos : (respond err val s).hostPos = .none := rfl
@[simp] theorem respond_desc : (respond err val s).desc = s.desc := rfl
@[simp] theorem respond_tmrPeriod : (respond err val s).tmrPeriod = s.tmrPeriod := rfl
@[simp] theorem respond_tmrCompare : (respond err val s).tmrCompare = s.tmrCompare := rfl
@[simp] theorem respond_addrPort : (respond err val s).addrPort = s.addrPort := rfl
@[simp] theorem respond_dataPort : (respond err val s).dataPort = s.dataPort := rfl
@[simp] theorem respond_mem : (respond err val s).mem = s.mem := rfl
@[simp] theorem respond_cfg : (respond err val s).cfg = s.cfg := rfl
@[simp] theorem respond_prog : (respond err val s).prog = s.prog := rfl
@[simp] theorem respond_sched : (respond err val s).sched = s.sched := rfl
@[simp] theorem respond_drawn : (respond err val s).drawn = s.drawn := rfl
@[simp] theorem respond_trace : (respond err val s).trace = s.trace ++ [.resp err val] := rfl
end

section
variable (c : Cause) (s : State)
@[simp] theorem raise_cmd : (raise c s).cmd = s.cmd := rfl
@[simp] theorem raise_respVal : (raise c s).respVal = 0#32 := rfl
@[simp] theorem raise_respErr : (raise c s).respErr = c.code := rfl
@[simp] theorem raise_runState : (raise c s).runState = s.runState := rfl
@[simp] theorem raise_sf : (raise c s).sf = s.sf := rfl
@[simp] theorem raise_phase : (raise c s).phase = s.phase := rfl
@[simp] theorem raise_idx : (raise c s).idx = s.idx := rfl
@[simp] theorem raise_swapPending : (raise c s).swapPending = s.swapPending := rfl
@[simp] theorem raise_active : (raise c s).active = s.active := rfl
@[simp] theorem raise_irqPending : (raise c s).irqPending = s.irqPending := rfl
@[simp] theorem raise_bright : (raise c s).bright = s.bright := rfl
@[simp] theorem raise_c0 : (raise c s).c0 = s.c0 := rfl
@[simp] theorem raise_encTarget : (raise c s).encTarget = s.encTarget := rfl
@[simp] theorem raise_hostPos : (raise c s).hostPos = .none := rfl
@[simp] theorem raise_desc : (raise c s).desc = s.desc := rfl
@[simp] theorem raise_tmrPeriod : (raise c s).tmrPeriod = s.tmrPeriod := rfl
@[simp] theorem raise_tmrCompare : (raise c s).tmrCompare = s.tmrCompare := rfl
@[simp] theorem raise_addrPort : (raise c s).addrPort = s.addrPort := rfl
@[simp] theorem raise_dataPort : (raise c s).dataPort = s.dataPort := rfl
@[simp] theorem raise_mem : (raise c s).mem = s.mem := rfl
@[simp] theorem raise_cfg : (raise c s).cfg = s.cfg := rfl
@[simp] theorem raise_prog : (raise c s).prog = s.prog := rfl
@[simp] theorem raise_sched : (raise c s).sched = s.sched := rfl
@[simp] theorem raise_drawn : (raise c s).drawn = s.drawn := rfl
@[simp] theorem raise_trace : (raise c s).trace = s.trace ++ [.resp c.code 0#32] := rfl
end

section
variable (s : State)
@[simp] theorem raiseIrq_cmd : (raiseIrq s).cmd = s.cmd := rfl
@[simp] theorem raiseIrq_respVal : (raiseIrq s).respVal = s.respVal := rfl
@[simp] theorem raiseIrq_respErr : (raiseIrq s).respErr = s.respErr := rfl
@[simp] theorem raiseIrq_runState : (raiseIrq s).runState = s.runState := rfl
@[simp] theorem raiseIrq_sf : (raiseIrq s).sf = s.sf := rfl
@[simp] theorem raiseIrq_phase : (raiseIrq s).phase = s.phase := rfl
@[simp] theorem raiseIrq_idx : (raiseIrq s).idx = s.idx := rfl
@[simp] theorem raiseIrq_swapPending : (raiseIrq s).swapPending = s.swapPending := rfl
@[simp] theorem raiseIrq_active : (raiseIrq s).active = s.active := rfl
@[simp] theorem raiseIrq_irqPending : (raiseIrq s).irqPending = true := rfl
@[simp] theorem raiseIrq_bright : (raiseIrq s).bright = s.bright := rfl
@[simp] theorem raiseIrq_c0 : (raiseIrq s).c0 = s.c0 := rfl
@[simp] theorem raiseIrq_encTarget : (raiseIrq s).encTarget = s.encTarget := rfl
@[simp] theorem raiseIrq_hostPos : (raiseIrq s).hostPos = s.hostPos := rfl
@[simp] theorem raiseIrq_desc : (raiseIrq s).desc = s.desc := rfl
@[simp] theorem raiseIrq_tmrPeriod : (raiseIrq s).tmrPeriod = s.tmrPeriod := rfl
@[simp] theorem raiseIrq_tmrCompare : (raiseIrq s).tmrCompare = s.tmrCompare := rfl
@[simp] theorem raiseIrq_addrPort : (raiseIrq s).addrPort = s.addrPort := rfl
@[simp] theorem raiseIrq_dataPort : (raiseIrq s).dataPort = s.dataPort := rfl
@[simp] theorem raiseIrq_mem : (raiseIrq s).mem = s.mem := rfl
@[simp] theorem raiseIrq_cfg : (raiseIrq s).cfg = s.cfg := rfl
@[simp] theorem raiseIrq_prog : (raiseIrq s).prog = s.prog := rfl
@[simp] theorem raiseIrq_sched : (raiseIrq s).sched = s.sched := rfl
@[simp] theorem raiseIrq_drawn : (raiseIrq s).drawn = s.drawn := rfl
@[simp] theorem raiseIrq_trace : (raiseIrq s).trace = s.trace ++ [.irq] := rfl
end

section
variable (b : Bool) (s : State)
@[simp] theorem ackIrq_cmd : (ackIrq b s).cmd = s.cmd := rfl
@[simp] theorem ackIrq_respVal : (ackIrq b s).respVal = s.respVal := rfl
@[simp] theorem ackIrq_respErr : (ackIrq b s).respErr = s.respErr := rfl
@[simp] theorem ackIrq_runState : (ackIrq b s).runState = s.runState := rfl
@[simp] theorem ackIrq_sf : (ackIrq b s).sf = s.sf := rfl
@[simp] theorem ackIrq_phase : (ackIrq b s).phase = s.phase := rfl
@[simp] theorem ackIrq_idx : (ackIrq b s).idx = s.idx := rfl
@[simp] theorem ackIrq_swapPending : (ackIrq b s).swapPending = s.swapPending := rfl
@[simp] theorem ackIrq_active : (ackIrq b s).active = s.active := rfl
@[simp] theorem ackIrq_irqPending : (ackIrq b s).irqPending = false := rfl
@[simp] theorem ackIrq_bright : (ackIrq b s).bright = s.bright := rfl
@[simp] theorem ackIrq_c0 : (ackIrq b s).c0 = s.c0 := rfl
@[simp] theorem ackIrq_encTarget : (ackIrq b s).encTarget = s.encTarget := rfl
@[simp] theorem ackIrq_hostPos : (ackIrq b s).hostPos = s.hostPos := rfl
@[simp] theorem ackIrq_desc : (ackIrq b s).desc = s.desc := rfl
@[simp] theorem ackIrq_tmrPeriod : (ackIrq b s).tmrPeriod = s.tmrPeriod := rfl
@[simp] theorem ackIrq_tmrCompare : (ackIrq b s).tmrCompare = s.tmrCompare := rfl
@[simp] theorem ackIrq_addrPort : (ackIrq b s).addrPort = s.addrPort := rfl
@[simp] theorem ackIrq_dataPort : (ackIrq b s).dataPort = s.dataPort := rfl
@[simp] theorem ackIrq_mem : (ackIrq b s).mem = s.mem := rfl
@[simp] theorem ackIrq_cfg : (ackIrq b s).cfg = s.cfg := rfl
@[simp] theorem ackIrq_prog : (ackIrq b s).prog = s.prog := rfl
@[simp] theorem ackIrq_sched : (ackIrq b s).sched = s.sched := rfl
@[simp] theorem ackIrq_drawn : (ackIrq b s).drawn = s.drawn := rfl
@[simp] theorem ackIrq_trace : (ackIrq b s).trace = s.trace ++ [.ack b] := rfl
end

section
variable (r : Region) (m : Memory) (s : State)
@[simp] theorem setRegion_cmd : (s.setRegion r m).cmd = s.cmd := rfl
@[simp] theorem setRegion_respVal : (s.setRegion r m).respVal = s.respVal := rfl
@[simp] theorem setRegion_respErr : (s.setRegion r m).respErr = s.respErr := rfl
@[simp] theorem setRegion_runState : (s.setRegion r m).runState = s.runState := rfl
@[simp] theorem setRegion_sf : (s.setRegion r m).sf = s.sf := rfl
@[simp] theorem setRegion_phase : (s.setRegion r m).phase = s.phase := rfl
@[simp] theorem setRegion_idx : (s.setRegion r m).idx = s.idx := rfl
@[simp] theorem setRegion_swapPending : (s.setRegion r m).swapPending = s.swapPending := rfl
@[simp] theorem setRegion_active : (s.setRegion r m).active = s.active := rfl
@[simp] theorem setRegion_irqPending : (s.setRegion r m).irqPending = s.irqPending := rfl
@[simp] theorem setRegion_bright : (s.setRegion r m).bright = s.bright := rfl
@[simp] theorem setRegion_c0 : (s.setRegion r m).c0 = s.c0 := rfl
@[simp] theorem setRegion_encTarget : (s.setRegion r m).encTarget = s.encTarget := rfl
@[simp] theorem setRegion_hostPos : (s.setRegion r m).hostPos = s.hostPos := rfl
@[simp] theorem setRegion_desc : (s.setRegion r m).desc = s.desc := rfl
@[simp] theorem setRegion_tmrPeriod : (s.setRegion r m).tmrPeriod = s.tmrPeriod := rfl
@[simp] theorem setRegion_tmrCompare : (s.setRegion r m).tmrCompare = s.tmrCompare := rfl
@[simp] theorem setRegion_addrPort : (s.setRegion r m).addrPort = s.addrPort := rfl
@[simp] theorem setRegion_dataPort : (s.setRegion r m).dataPort = s.dataPort := rfl
@[simp] theorem setRegion_mem : (s.setRegion r m).mem = s.mem.set r m := rfl
@[simp] theorem setRegion_cfg : (s.setRegion r m).cfg = s.cfg := rfl
@[simp] theorem setRegion_prog : (s.setRegion r m).prog = s.prog := rfl
@[simp] theorem setRegion_sched : (s.setRegion r m).sched = s.sched := rfl
@[simp] theorem setRegion_drawn : (s.setRegion r m).drawn = s.drawn := rfl
@[simp] theorem setRegion_trace : (s.setRegion r m).trace = s.trace := rfl
end

section
variable (r : Region) (n : Nat) (f : Nat → Byte) (s : State)
@[simp] theorem fillBytes_cmd : (fillBytes r n f s).cmd = s.cmd := rfl
@[simp] theorem fillBytes_respVal : (fillBytes r n f s).respVal = s.respVal := rfl
@[simp] theorem fillBytes_respErr : (fillBytes r n f s).respErr = s.respErr := rfl
@[simp] theorem fillBytes_runState : (fillBytes r n f s).runState = s.runState := rfl
@[simp] theorem fillBytes_sf : (fillBytes r n f s).sf = s.sf := rfl
@[simp] theorem fillBytes_phase : (fillBytes r n f s).phase = s.phase := rfl
@[simp] theorem fillBytes_idx : (fillBytes r n f s).idx = s.idx := rfl
@[simp] theorem fillBytes_swapPending : (fillBytes r n f s).swapPending = s.swapPending := rfl
@[simp] theorem fillBytes_active : (fillBytes r n f s).active = s.active := rfl
@[simp] theorem fillBytes_irqPending : (fillBytes r n f s).irqPending = s.irqPending := rfl
@[simp] theorem fillBytes_bright : (fillBytes r n f s).bright = s.bright := rfl
@[simp] theorem fillBytes_c0 : (fillBytes r n f s).c0 = s.c0 := rfl
@[simp] theorem fillBytes_encTarget : (fillBytes r n f s).encTarget = s.encTarget := rfl
@[simp] theorem fillBytes_hostPos : (fillBytes r n f s).hostPos = s.hostPos := rfl
@[simp] theorem fillBytes_desc : (fillBytes r n f s).desc = s.desc := rfl
@[simp] theorem fillBytes_tmrPeriod : (fillBytes r n f s).tmrPeriod = s.tmrPeriod := rfl
@[simp] theorem fillBytes_tmrCompare : (fillBytes r n f s).tmrCompare = s.tmrCompare := rfl
@[simp] theorem fillBytes_addrPort : (fillBytes r n f s).addrPort = s.addrPort := rfl
@[simp] theorem fillBytes_dataPort : (fillBytes r n f s).dataPort = s.dataPort := rfl
@[simp] theorem fillBytes_mem : (fillBytes r n f s).mem = s.mem.set r (Memory.fill r.unlisted n f) := rfl
@[simp] theorem fillBytes_cfg : (fillBytes r n f s).cfg = s.cfg := rfl
@[simp] theorem fillBytes_prog : (fillBytes r n f s).prog = s.prog := rfl
@[simp] theorem fillBytes_sched : (fillBytes r n f s).sched = s.sched := rfl
@[simp] theorem fillBytes_drawn : (fillBytes r n f s).drawn = s.drawn := rfl
@[simp] theorem fillBytes_trace : (fillBytes r n f s).trace = s.trace := rfl
end

section
variable (r : Region) (f : Nat → Nat) (s : State)
@[simp] theorem fillEntries_cmd : (fillEntries r f s).cmd = s.cmd := rfl
@[simp] theorem fillEntries_respVal : (fillEntries r f s).respVal = s.respVal := rfl
@[simp] theorem fillEntries_respErr : (fillEntries r f s).respErr = s.respErr := rfl
@[simp] theorem fillEntries_runState : (fillEntries r f s).runState = s.runState := rfl
@[simp] theorem fillEntries_sf : (fillEntries r f s).sf = s.sf := rfl
@[simp] theorem fillEntries_phase : (fillEntries r f s).phase = s.phase := rfl
@[simp] theorem fillEntries_idx : (fillEntries r f s).idx = s.idx := rfl
@[simp] theorem fillEntries_swapPending : (fillEntries r f s).swapPending = s.swapPending := rfl
@[simp] theorem fillEntries_active : (fillEntries r f s).active = s.active := rfl
@[simp] theorem fillEntries_irqPending : (fillEntries r f s).irqPending = s.irqPending := rfl
@[simp] theorem fillEntries_bright : (fillEntries r f s).bright = s.bright := rfl
@[simp] theorem fillEntries_c0 : (fillEntries r f s).c0 = s.c0 := rfl
@[simp] theorem fillEntries_encTarget : (fillEntries r f s).encTarget = s.encTarget := rfl
@[simp] theorem fillEntries_hostPos : (fillEntries r f s).hostPos = s.hostPos := rfl
@[simp] theorem fillEntries_desc : (fillEntries r f s).desc = s.desc := rfl
@[simp] theorem fillEntries_tmrPeriod : (fillEntries r f s).tmrPeriod = s.tmrPeriod := rfl
@[simp] theorem fillEntries_tmrCompare : (fillEntries r f s).tmrCompare = s.tmrCompare := rfl
@[simp] theorem fillEntries_addrPort : (fillEntries r f s).addrPort = s.addrPort := rfl
@[simp] theorem fillEntries_dataPort : (fillEntries r f s).dataPort = s.dataPort := rfl
@[simp] theorem fillEntries_mem : (fillEntries r f s).mem = s.mem.set r (Memory.fill r.unlisted (s.cfg.ttEntries * s.cfg.entryBytes) (entryByte s.cfg f)) := rfl
@[simp] theorem fillEntries_cfg : (fillEntries r f s).cfg = s.cfg := rfl
@[simp] theorem fillEntries_prog : (fillEntries r f s).prog = s.prog := rfl
@[simp] theorem fillEntries_sched : (fillEntries r f s).sched = s.sched := rfl
@[simp] theorem fillEntries_drawn : (fillEntries r f s).drawn = s.drawn := rfl
@[simp] theorem fillEntries_trace : (fillEntries r f s).trace = s.trace := rfl
end

section
variable (a : Bool) (g : Nat → Byte) (s : State)
@[simp] theorem encodeInto_cmd : (encodeInto a g s).cmd = s.cmd := rfl
@[simp] theorem encodeInto_respVal : (encodeInto a g s).respVal = s.respVal := rfl
@[simp] theorem encodeInto_respErr : (encodeInto a g s).respErr = s.respErr := rfl
@[simp] theorem encodeInto_runState : (encodeInto a g s).runState = s.runState := rfl
@[simp] theorem encodeInto_sf : (encodeInto a g s).sf = s.sf := rfl
@[simp] theorem encodeInto_phase : (encodeInto a g s).phase = s.phase := rfl
@[simp] theorem encodeInto_idx : (encodeInto a g s).idx = s.idx := rfl
@[simp] theorem encodeInto_swapPending : (encodeInto a g s).swapPending = s.swapPending := rfl
@[simp] theorem encodeInto_active : (encodeInto a g s).active = s.active := rfl
@[simp] theorem encodeInto_irqPending : (encodeInto a g s).irqPending = s.irqPending := rfl
@[simp] theorem encodeInto_bright : (encodeInto a g s).bright = s.bright := rfl
@[simp] theorem encodeInto_c0 : (encodeInto a g s).c0 = s.c0 := rfl
@[simp] theorem encodeInto_encTarget : (encodeInto a g s).encTarget = s.encTarget := rfl
@[simp] theorem encodeInto_hostPos : (encodeInto a g s).hostPos = s.hostPos := rfl
@[simp] theorem encodeInto_desc : (encodeInto a g s).desc = s.desc := rfl
@[simp] theorem encodeInto_tmrPeriod : (encodeInto a g s).tmrPeriod = s.tmrPeriod := rfl
@[simp] theorem encodeInto_tmrCompare : (encodeInto a g s).tmrCompare = s.tmrCompare := rfl
@[simp] theorem encodeInto_addrPort : (encodeInto a g s).addrPort = s.addrPort := rfl
@[simp] theorem encodeInto_dataPort : (encodeInto a g s).dataPort = s.dataPort := rfl
@[simp] theorem encodeInto_mem : (encodeInto a g s).mem = s.mem.set (Region.bs a) (Memory.fill (Region.bs a).unlisted s.cfg.bsBytes (encodeAt s.cfg g)) := rfl
@[simp] theorem encodeInto_cfg : (encodeInto a g s).cfg = s.cfg := rfl
@[simp] theorem encodeInto_prog : (encodeInto a g s).prog = s.prog := rfl
@[simp] theorem encodeInto_sched : (encodeInto a g s).sched = s.sched := rfl
@[simp] theorem encodeInto_drawn : (encodeInto a g s).drawn = s.drawn := rfl
@[simp] theorem encodeInto_trace : (encodeInto a g s).trace = s.trace := rfl
end

section
variable (s : State)
@[simp] theorem retractAndLatch_cmd : (retractAndLatch s).cmd = s.cmd := rfl
@[simp] theorem retractAndLatch_respVal : (retractAndLatch s).respVal = s.respVal := rfl
@[simp] theorem retractAndLatch_respErr : (retractAndLatch s).respErr = s.respErr := rfl
@[simp] theorem retractAndLatch_runState : (retractAndLatch s).runState = s.runState := rfl
@[simp] theorem retractAndLatch_sf : (retractAndLatch s).sf = s.sf := rfl
@[simp] theorem retractAndLatch_phase : (retractAndLatch s).phase = s.phase := rfl
@[simp] theorem retractAndLatch_idx : (retractAndLatch s).idx = s.idx := rfl
@[simp] theorem retractAndLatch_swapPending : (retractAndLatch s).swapPending = false := rfl
@[simp] theorem retractAndLatch_active : (retractAndLatch s).active = s.active := rfl
@[simp] theorem retractAndLatch_irqPending : (retractAndLatch s).irqPending = s.irqPending := rfl
@[simp] theorem retractAndLatch_bright : (retractAndLatch s).bright = s.bright := rfl
@[simp] theorem retractAndLatch_c0 : (retractAndLatch s).c0 = s.c0 := rfl
@[simp] theorem retractAndLatch_encTarget : (retractAndLatch s).encTarget = !s.active := rfl
@[simp] theorem retractAndLatch_hostPos : (retractAndLatch s).hostPos = s.hostPos := rfl
@[simp] theorem retractAndLatch_desc : (retractAndLatch s).desc = s.desc := rfl
@[simp] theorem retractAndLatch_tmrPeriod : (retractAndLatch s).tmrPeriod = s.tmrPeriod := rfl
@[simp] theorem retractAndLatch_tmrCompare : (retractAndLatch s).tmrCompare = s.tmrCompare := rfl
@[simp] theorem retractAndLatch_addrPort : (retractAndLatch s).addrPort = s.addrPort := rfl
@[simp] theorem retractAndLatch_dataPort : (retractAndLatch s).dataPort = s.dataPort := rfl
@[simp] theorem retractAndLatch_mem : (retractAndLatch s).mem = s.mem := rfl
@[simp] theorem retractAndLatch_cfg : (retractAndLatch s).cfg = s.cfg := rfl
@[simp] theorem retractAndLatch_prog : (retractAndLatch s).prog = s.prog := rfl
@[simp] theorem retractAndLatch_sched : (retractAndLatch s).sched = s.sched := rfl
@[simp] theorem retractAndLatch_drawn : (retractAndLatch s).drawn = s.drawn := rfl
@[simp] theorem retractAndLatch_trace : (retractAndLatch s).trace = s.trace := rfl
end

section
variable (s : State)
@[simp] theorem requestSwap_cmd : (requestSwap s).cmd = s.cmd := rfl
@[simp] theorem requestSwap_respVal : (requestSwap s).respVal = s.respVal := rfl
@[simp] theorem requestSwap_respErr : (requestSwap s).respErr = s.respErr := rfl
@[simp] theorem requestSwap_runState : (requestSwap s).runState = s.runState := rfl
@[simp] theorem requestSwap_sf : (requestSwap s).sf = s.sf := rfl
@[simp] theorem requestSwap_phase : (requestSwap s).phase = s.phase := rfl
@[simp] theorem requestSwap_idx : (requestSwap s).idx = s.idx := rfl
@[simp] theorem requestSwap_swapPending : (requestSwap s).swapPending = true := rfl
@[simp] theorem requestSwap_active : (requestSwap s).active = s.active := rfl
@[simp] theorem requestSwap_irqPending : (requestSwap s).irqPending = s.irqPending := rfl
@[simp] theorem requestSwap_bright : (requestSwap s).bright = s.bright := rfl
@[simp] theorem requestSwap_c0 : (requestSwap s).c0 = s.c0 := rfl
@[simp] theorem requestSwap_encTarget : (requestSwap s).encTarget = s.encTarget := rfl
@[simp] theorem requestSwap_hostPos : (requestSwap s).hostPos = s.hostPos := rfl
@[simp] theorem requestSwap_desc : (requestSwap s).desc = s.desc := rfl
@[simp] theorem requestSwap_tmrPeriod : (requestSwap s).tmrPeriod = s.tmrPeriod := rfl
@[simp] theorem requestSwap_tmrCompare : (requestSwap s).tmrCompare = s.tmrCompare := rfl
@[simp] theorem requestSwap_addrPort : (requestSwap s).addrPort = s.addrPort := rfl
@[simp] theorem requestSwap_dataPort : (requestSwap s).dataPort = s.dataPort := rfl
@[simp] theorem requestSwap_mem : (requestSwap s).mem = s.mem := rfl
@[simp] theorem requestSwap_cfg : (requestSwap s).cfg = s.cfg := rfl
@[simp] theorem requestSwap_prog : (requestSwap s).prog = s.prog := rfl
@[simp] theorem requestSwap_sched : (requestSwap s).sched = s.sched := rfl
@[simp] theorem requestSwap_drawn : (requestSwap s).drawn = s.drawn := rfl
@[simp] theorem requestSwap_trace : (requestSwap s).trace = s.trace := rfl
end

section
variable (s : State)
@[simp] theorem swapBuffers_cmd : (swapBuffers s).cmd = s.cmd := rfl
@[simp] theorem swapBuffers_respVal : (swapBuffers s).respVal = s.respVal := rfl
@[simp] theorem swapBuffers_respErr : (swapBuffers s).respErr = s.respErr := rfl
@[simp] theorem swapBuffers_runState : (swapBuffers s).runState = s.runState := rfl
@[simp] theorem swapBuffers_sf : (swapBuffers s).sf = s.sf := rfl
@[simp] theorem swapBuffers_phase : (swapBuffers s).phase = s.phase := rfl
@[simp] theorem swapBuffers_idx : (swapBuffers s).idx = s.idx := rfl
@[simp] theorem swapBuffers_swapPending : (swapBuffers s).swapPending = false := rfl
@[simp] theorem swapBuffers_active : (swapBuffers s).active = !s.active := rfl
@[simp] theorem swapBuffers_irqPending : (swapBuffers s).irqPending = s.irqPending := rfl
@[simp] theorem swapBuffers_bright : (swapBuffers s).bright = s.bright := rfl
@[simp] theorem swapBuffers_c0 : (swapBuffers s).c0 = s.c0 := rfl
@[simp] theorem swapBuffers_encTarget : (swapBuffers s).encTarget = s.encTarget := rfl
@[simp] theorem swapBuffers_hostPos : (swapBuffers s).hostPos = s.hostPos := rfl
@[simp] theorem swapBuffers_desc : (swapBuffers s).desc = { s.desc with data := { s.desc.data with src := Region.bs (!s.active) } } := rfl
@[simp] theorem swapBuffers_tmrPeriod : (swapBuffers s).tmrPeriod = s.tmrPeriod := rfl
@[simp] theorem swapBuffers_tmrCompare : (swapBuffers s).tmrCompare = s.tmrCompare := rfl
@[simp] theorem swapBuffers_addrPort : (swapBuffers s).addrPort = s.addrPort := rfl
@[simp] theorem swapBuffers_dataPort : (swapBuffers s).dataPort = s.dataPort := rfl
@[simp] theorem swapBuffers_mem : (swapBuffers s).mem = s.mem := rfl
@[simp] theorem swapBuffers_cfg : (swapBuffers s).cfg = s.cfg := rfl
@[simp] theorem swapBuffers_prog : (swapBuffers s).prog = s.prog := rfl
@[simp] theorem swapBuffers_sched : (swapBuffers s).sched = s.sched := rfl
@[simp] theorem swapBuffers_drawn : (swapBuffers s).drawn = s.drawn := rfl
@[simp] theorem swapBuffers_trace : (swapBuffers s).trace = s.trace := rfl
end

section
variable (s : State)
@[simp] theorem latchC0_cmd : (latchC0 s).cmd = s.cmd := rfl
@[simp] theorem latchC0_respVal : (latchC0 s).respVal = s.respVal := rfl
@[simp] theorem latchC0_respErr : (latchC0 s).respErr = s.respErr := rfl
@[simp] theorem latchC0_runState : (latchC0 s).runState = s.runState := rfl
@[simp] theorem latchC0_sf : (latchC0 s).sf = s.sf := rfl
@[simp] theorem latchC0_phase : (latchC0 s).phase = s.phase := rfl
@[simp] theorem latchC0_idx : (latchC0 s).idx = s.idx := rfl
@[simp] theorem latchC0_swapPending : (latchC0 s).swapPending = s.swapPending := rfl
@[simp] theorem latchC0_active : (latchC0 s).active = s.active := rfl
@[simp] theorem latchC0_irqPending : (latchC0 s).irqPending = s.irqPending := rfl
@[simp] theorem latchC0_bright : (latchC0 s).bright = s.bright := rfl
@[simp] theorem latchC0_c0 : (latchC0 s).c0 = truncEntry s.cfg (c0Of s.cfg s.bright) := rfl
@[simp] theorem latchC0_encTarget : (latchC0 s).encTarget = s.encTarget := rfl
@[simp] theorem latchC0_hostPos : (latchC0 s).hostPos = s.hostPos := rfl
@[simp] theorem latchC0_desc : (latchC0 s).desc = s.desc := rfl
@[simp] theorem latchC0_tmrPeriod : (latchC0 s).tmrPeriod = s.tmrPeriod := rfl
@[simp] theorem latchC0_tmrCompare : (latchC0 s).tmrCompare = s.tmrCompare := rfl
@[simp] theorem latchC0_addrPort : (latchC0 s).addrPort = s.addrPort := rfl
@[simp] theorem latchC0_dataPort : (latchC0 s).dataPort = s.dataPort := rfl
@[simp] theorem latchC0_mem : (latchC0 s).mem = s.mem := rfl
@[simp] theorem latchC0_cfg : (latchC0 s).cfg = s.cfg := rfl
@[simp] theorem latchC0_prog : (latchC0 s).prog = s.prog := rfl
@[simp] theorem latchC0_sched : (latchC0 s).sched = s.sched := rfl
@[simp] theorem latchC0_drawn : (latchC0 s).drawn = s.drawn := rfl
@[simp] theorem latchC0_trace : (latchC0 s).trace = s.trace := rfl
end

section
variable (s : State)
@[simp] theorem loseOutputs_cmd : (loseOutputs s).cmd = s.cmd := rfl
@[simp] theorem loseOutputs_respVal : (loseOutputs s).respVal = s.respVal := rfl
@[simp] theorem loseOutputs_respErr : (loseOutputs s).respErr = s.respErr := rfl
@[simp] theorem loseOutputs_runState : (loseOutputs s).runState = s.runState := rfl
@[simp] theorem loseOutputs_sf : (loseOutputs s).sf = s.sf := rfl
@[simp] theorem loseOutputs_phase : (loseOutputs s).phase = s.phase := rfl
@[simp] theorem loseOutputs_idx : (loseOutputs s).idx = s.idx := rfl
@[simp] theorem loseOutputs_swapPending : (loseOutputs s).swapPending = s.swapPending := rfl
@[simp] theorem loseOutputs_active : (loseOutputs s).active = s.active := rfl
@[simp] theorem loseOutputs_irqPending : (loseOutputs s).irqPending = s.irqPending := rfl
@[simp] theorem loseOutputs_bright : (loseOutputs s).bright = s.bright := rfl
@[simp] theorem loseOutputs_c0 : (loseOutputs s).c0 = s.c0 := rfl
@[simp] theorem loseOutputs_encTarget : (loseOutputs s).encTarget = s.encTarget := rfl
@[simp] theorem loseOutputs_hostPos : (loseOutputs s).hostPos = s.hostPos := rfl
@[simp] theorem loseOutputs_desc : (loseOutputs s).desc = s.desc := rfl
@[simp] theorem loseOutputs_tmrPeriod : (loseOutputs s).tmrPeriod = truncEntry s.cfg (Config.freeOutput s.drawn).toNat := rfl
@[simp] theorem loseOutputs_tmrCompare : (loseOutputs s).tmrCompare = truncEntry s.cfg (Config.freeOutput (s.drawn + 1)).toNat := rfl
@[simp] theorem loseOutputs_addrPort : (loseOutputs s).addrPort = (Config.freeOutput (s.drawn + 2)).setWidth 8 := rfl
@[simp] theorem loseOutputs_dataPort : (loseOutputs s).dataPort = (Config.freeOutput (s.drawn + 3)).setWidth 8 := rfl
@[simp] theorem loseOutputs_mem : (loseOutputs s).mem = s.mem := rfl
@[simp] theorem loseOutputs_cfg : (loseOutputs s).cfg = s.cfg := rfl
@[simp] theorem loseOutputs_prog : (loseOutputs s).prog = s.prog := rfl
@[simp] theorem loseOutputs_sched : (loseOutputs s).sched = s.sched := rfl
@[simp] theorem loseOutputs_drawn : (loseOutputs s).drawn = s.drawn + 4 := rfl
@[simp] theorem loseOutputs_trace : (loseOutputs s).trace = s.trace := rfl
end

section
variable (w : Command) (rest : List Command) (s : State)
@[simp] theorem issue_cmd : (issue w rest s).cmd = w := rfl
@[simp] theorem issue_respVal : (issue w rest s).respVal = s.respVal := rfl
@[simp] theorem issue_respErr : (issue w rest s).respErr = s.respErr := rfl
@[simp] theorem issue_runState : (issue w rest s).runState = s.runState := rfl
@[simp] theorem issue_sf : (issue w rest s).sf = s.sf := rfl
@[simp] theorem issue_phase : (issue w rest s).phase = s.phase := rfl
@[simp] theorem issue_idx : (issue w rest s).idx = s.idx := rfl
@[simp] theorem issue_swapPending : (issue w rest s).swapPending = s.swapPending := rfl
@[simp] theorem issue_active : (issue w rest s).active = s.active := rfl
@[simp] theorem issue_irqPending : (issue w rest s).irqPending = s.irqPending := rfl
@[simp] theorem issue_bright : (issue w rest s).bright = s.bright := rfl
@[simp] theorem issue_c0 : (issue w rest s).c0 = s.c0 := rfl
@[simp] theorem issue_encTarget : (issue w rest s).encTarget = s.encTarget := rfl
@[simp] theorem issue_hostPos : (issue w rest s).hostPos = s.hostPos := rfl
@[simp] theorem issue_desc : (issue w rest s).desc = s.desc := rfl
@[simp] theorem issue_tmrPeriod : (issue w rest s).tmrPeriod = s.tmrPeriod := rfl
@[simp] theorem issue_tmrCompare : (issue w rest s).tmrCompare = s.tmrCompare := rfl
@[simp] theorem issue_addrPort : (issue w rest s).addrPort = s.addrPort := rfl
@[simp] theorem issue_dataPort : (issue w rest s).dataPort = s.dataPort := rfl
@[simp] theorem issue_mem : (issue w rest s).mem = s.mem := rfl
@[simp] theorem issue_cfg : (issue w rest s).cfg = s.cfg := rfl
@[simp] theorem issue_prog : (issue w rest s).prog = rest := rfl
@[simp] theorem issue_sched : (issue w rest s).sched = s.sched := rfl
@[simp] theorem issue_drawn : (issue w rest s).drawn = s.drawn := rfl
@[simp] theorem issue_trace : (issue w rest s).trace = s.trace := rfl
end

section
variable (s : State)
@[simp] theorem armChain_cmd : (armChain s).cmd = s.cmd := rfl
@[simp] theorem armChain_respVal : (armChain s).respVal = s.respVal := rfl
@[simp] theorem armChain_respErr : (armChain s).respErr = s.respErr := rfl
@[simp] theorem armChain_runState : (armChain s).runState = .running := rfl
@[simp] theorem armChain_sf : (armChain s).sf = 0 := rfl
@[simp] theorem armChain_phase : (armChain s).phase = .a := rfl
@[simp] theorem armChain_idx : (armChain s).idx = 0 := rfl
@[simp] theorem armChain_swapPending : (armChain s).swapPending = false := rfl
@[simp] theorem armChain_active : (armChain s).active = false := rfl
@[simp] theorem armChain_irqPending : (armChain s).irqPending = false := rfl
@[simp] theorem armChain_bright : (armChain s).bright = s.bright := rfl
@[simp] theorem armChain_c0 : (armChain s).c0 = s.c0 := rfl
@[simp] theorem armChain_encTarget : (armChain s).encTarget = s.encTarget := rfl
@[simp] theorem armChain_hostPos : (armChain s).hostPos = s.hostPos := rfl
@[simp] theorem armChain_desc : (armChain s).desc = programmed s.cfg := rfl
@[simp] theorem armChain_tmrPeriod : (armChain s).tmrPeriod = s.tmrPeriod := rfl
@[simp] theorem armChain_tmrCompare : (armChain s).tmrCompare = s.tmrCompare := rfl
@[simp] theorem armChain_addrPort : (armChain s).addrPort = s.addrPort := rfl
@[simp] theorem armChain_dataPort : (armChain s).dataPort = s.dataPort := rfl
@[simp] theorem armChain_mem : (armChain s).mem = s.mem := rfl
@[simp] theorem armChain_cfg : (armChain s).cfg = s.cfg := rfl
@[simp] theorem armChain_prog : (armChain s).prog = s.prog := rfl
@[simp] theorem armChain_sched : (armChain s).sched = s.sched := rfl
@[simp] theorem armChain_drawn : (armChain s).drawn = s.drawn := rfl
@[simp] theorem armChain_trace : (armChain s).trace = s.trace := rfl
end

section
variable (s : State)
@[simp] theorem showRetract_cmd : (showRetract s).cmd = s.cmd := rfl
@[simp] theorem showRetract_respVal : (showRetract s).respVal = s.respVal := rfl
@[simp] theorem showRetract_respErr : (showRetract s).respErr = s.respErr := rfl
@[simp] theorem showRetract_runState : (showRetract s).runState = s.runState := rfl
@[simp] theorem showRetract_sf : (showRetract s).sf = s.sf := rfl
@[simp] theorem showRetract_phase : (showRetract s).phase = s.phase := rfl
@[simp] theorem showRetract_idx : (showRetract s).idx = s.idx := rfl
@[simp] theorem showRetract_swapPending : (showRetract s).swapPending = false := rfl
@[simp] theorem showRetract_active : (showRetract s).active = s.active := rfl
@[simp] theorem showRetract_irqPending : (showRetract s).irqPending = s.irqPending := rfl
@[simp] theorem showRetract_bright : (showRetract s).bright = s.bright := rfl
@[simp] theorem showRetract_c0 : (showRetract s).c0 = s.c0 := rfl
@[simp] theorem showRetract_encTarget : (showRetract s).encTarget = !s.active := rfl
@[simp] theorem showRetract_hostPos : (showRetract s).hostPos = .show1 := rfl
@[simp] theorem showRetract_desc : (showRetract s).desc = s.desc := rfl
@[simp] theorem showRetract_tmrPeriod : (showRetract s).tmrPeriod = s.tmrPeriod := rfl
@[simp] theorem showRetract_tmrCompare : (showRetract s).tmrCompare = s.tmrCompare := rfl
@[simp] theorem showRetract_addrPort : (showRetract s).addrPort = s.addrPort := rfl
@[simp] theorem showRetract_dataPort : (showRetract s).dataPort = s.dataPort := rfl
@[simp] theorem showRetract_mem : (showRetract s).mem = s.mem := rfl
@[simp] theorem showRetract_cfg : (showRetract s).cfg = s.cfg := rfl
@[simp] theorem showRetract_prog : (showRetract s).prog = s.prog := rfl
@[simp] theorem showRetract_sched : (showRetract s).sched = s.sched := rfl
@[simp] theorem showRetract_drawn : (showRetract s).drawn = s.drawn := rfl
@[simp] theorem showRetract_trace : (showRetract s).trace = s.trace := rfl
end

section
variable (s : State)
@[simp] theorem showCommit_cmd : (showCommit s).cmd = s.cmd := rfl
@[simp] theorem showCommit_respVal : (showCommit s).respVal = 0#32 := rfl
@[simp] theorem showCommit_respErr : (showCommit s).respErr = 0#8 := rfl
@[simp] theorem showCommit_runState : (showCommit s).runState = s.runState := rfl
@[simp] theorem showCommit_sf : (showCommit s).sf = s.sf := rfl
@[simp] theorem showCommit_phase : (showCommit s).phase = s.phase := rfl
@[simp] theorem showCommit_idx : (showCommit s).idx = s.idx := rfl
@[simp] theorem showCommit_swapPending : (showCommit s).swapPending = true := rfl
@[simp] theorem showCommit_active : (showCommit s).active = s.active := rfl
@[simp] theorem showCommit_irqPending : (showCommit s).irqPending = s.irqPending := rfl
@[simp] theorem showCommit_bright : (showCommit s).bright = s.bright := rfl
@[simp] theorem showCommit_c0 : (showCommit s).c0 = s.c0 := rfl
@[simp] theorem showCommit_encTarget : (showCommit s).encTarget = s.encTarget := rfl
@[simp] theorem showCommit_hostPos : (showCommit s).hostPos = .none := rfl
@[simp] theorem showCommit_desc : (showCommit s).desc = s.desc := rfl
@[simp] theorem showCommit_tmrPeriod : (showCommit s).tmrPeriod = s.tmrPeriod := rfl
@[simp] theorem showCommit_tmrCompare : (showCommit s).tmrCompare = s.tmrCompare := rfl
@[simp] theorem showCommit_addrPort : (showCommit s).addrPort = s.addrPort := rfl
@[simp] theorem showCommit_dataPort : (showCommit s).dataPort = s.dataPort := rfl
@[simp] theorem showCommit_mem : (showCommit s).mem = s.mem := rfl
@[simp] theorem showCommit_cfg : (showCommit s).cfg = s.cfg := rfl
@[simp] theorem showCommit_prog : (showCommit s).prog = s.prog := rfl
@[simp] theorem showCommit_sched : (showCommit s).sched = s.sched := rfl
@[simp] theorem showCommit_drawn : (showCommit s).drawn = s.drawn := rfl
@[simp] theorem showCommit_trace : (showCommit s).trace = s.trace ++ [.resp 0#8 0#32] := rfl
end

section
variable (s : State)
@[simp] theorem swapIfPending_cmd : (swapIfPending s).cmd = s.cmd := by unfold swapIfPending; split <;> rfl
@[simp] theorem swapIfPending_respVal : (swapIfPending s).respVal = s.respVal := by unfold swapIfPending; split <;> rfl
@[simp] theorem swapIfPending_respErr : (swapIfPending s).respErr = s.respErr := by unfold swapIfPending; split <;> rfl
@[simp] theorem swapIfPending_runState : (swapIfPending s).runState = s.runState := by unfold swapIfPending; split <;> rfl
@[simp] theorem swapIfPending_sf : (swapIfPending s).sf = s.sf := by unfold swapIfPending; split <;> rfl
@[simp] theorem swapIfPending_phase : (swapIfPending s).phase = s.phase := by unfold swapIfPending; split <;> rfl
@[simp] theorem swapIfPending_idx : (swapIfPending s).idx = s.idx := by unfold swapIfPending; split <;> rfl
@[simp] theorem swapIfPending_irqPending : (swapIfPending s).irqPending = s.irqPending := by unfold swapIfPending; split <;> rfl
@[simp] theorem swapIfPending_bright : (swapIfPending s).bright = s.bright := by unfold swapIfPending; split <;> rfl
@[simp] theorem swapIfPending_c0 : (swapIfPending s).c0 = s.c0 := by unfold swapIfPending; split <;> rfl
@[simp] theorem swapIfPending_encTarget : (swapIfPending s).encTarget = s.encTarget := by unfold swapIfPending; split <;> rfl
@[simp] theorem swapIfPending_hostPos : (swapIfPending s).hostPos = s.hostPos := by unfold swapIfPending; split <;> rfl
@[simp] theorem swapIfPending_tmrPeriod : (swapIfPending s).tmrPeriod = s.tmrPeriod := by unfold swapIfPending; split <;> rfl
@[simp] theorem swapIfPending_tmrCompare : (swapIfPending s).tmrCompare = s.tmrCompare := by unfold swapIfPending; split <;> rfl
@[simp] theorem swapIfPending_addrPort : (swapIfPending s).addrPort = s.addrPort := by unfold swapIfPending; split <;> rfl
@[simp] theorem swapIfPending_dataPort : (swapIfPending s).dataPort = s.dataPort := by unfold swapIfPending; split <;> rfl
@[simp] theorem swapIfPending_mem : (swapIfPending s).mem = s.mem := by unfold swapIfPending; split <;> rfl
@[simp] theorem swapIfPending_cfg : (swapIfPending s).cfg = s.cfg := by unfold swapIfPending; split <;> rfl
@[simp] theorem swapIfPending_prog : (swapIfPending s).prog = s.prog := by unfold swapIfPending; split <;> rfl
@[simp] theorem swapIfPending_sched : (swapIfPending s).sched = s.sched := by unfold swapIfPending; split <;> rfl
@[simp] theorem swapIfPending_drawn : (swapIfPending s).drawn = s.drawn := by unfold swapIfPending; split <;> rfl
@[simp] theorem swapIfPending_trace : (swapIfPending s).trace = s.trace := by unfold swapIfPending; split <;> rfl
end

section
variable (s : State)
@[simp] theorem afterAddr_cmd : (afterAddr s).cmd = s.cmd := by unfold afterAddr; split <;> rfl
@[simp] theorem afterAddr_respVal : (afterAddr s).respVal = s.respVal := by unfold afterAddr; split <;> rfl
@[simp] theorem afterAddr_respErr : (afterAddr s).respErr = s.respErr := by unfold afterAddr; split <;> rfl
@[simp] theorem afterAddr_runState : (afterAddr s).runState = s.runState := by unfold afterAddr; split <;> rfl
@[simp] theorem afterAddr_sf : (afterAddr s).sf = s.sf := by unfold afterAddr; split <;> rfl
@[simp] theorem afterAddr_swapPending : (afterAddr s).swapPending = s.swapPending := by unfold afterAddr; split <;> rfl
@[simp] theorem afterAddr_active : (afterAddr s).active = s.active := by unfold afterAddr; split <;> rfl
@[simp] theorem afterAddr_irqPending : (afterAddr s).irqPending = s.irqPending := by unfold afterAddr; split <;> rfl
@[simp] theorem afterAddr_bright : (afterAddr s).bright = s.bright := by unfold afterAddr; split <;> rfl
@[simp] theorem afterAddr_c0 : (afterAddr s).c0 = s.c0 := by unfold afterAddr; split <;> rfl
@[simp] theorem afterAddr_encTarget : (afterAddr s).encTarget = s.encTarget := by unfold afterAddr; split <;> rfl
@[simp] theorem afterAddr_hostPos : (afterAddr s).hostPos = s.hostPos := by unfold afterAddr; split <;> rfl
@[simp] theorem afterAddr_desc : (afterAddr s).desc = s.desc := by unfold afterAddr; split <;> rfl
@[simp] theorem afterAddr_tmrPeriod : (afterAddr s).tmrPeriod = s.tmrPeriod := by unfold afterAddr; split <;> rfl
@[simp] theorem afterAddr_tmrCompare : (afterAddr s).tmrCompare = s.tmrCompare := by unfold afterAddr; split <;> rfl
@[simp] theorem afterAddr_addrPort : (afterAddr s).addrPort = s.addrPort := by unfold afterAddr; split <;> rfl
@[simp] theorem afterAddr_dataPort : (afterAddr s).dataPort = s.dataPort := by unfold afterAddr; split <;> rfl
@[simp] theorem afterAddr_mem : (afterAddr s).mem = s.mem := by unfold afterAddr; split <;> rfl
@[simp] theorem afterAddr_cfg : (afterAddr s).cfg = s.cfg := by unfold afterAddr; split <;> rfl
@[simp] theorem afterAddr_prog : (afterAddr s).prog = s.prog := by unfold afterAddr; split <;> rfl
@[simp] theorem afterAddr_sched : (afterAddr s).sched = s.sched := by unfold afterAddr; split <;> rfl
@[simp] theorem afterAddr_drawn : (afterAddr s).drawn = s.drawn := by unfold afterAddr; split <;> rfl
@[simp] theorem afterAddr_trace : (afterAddr s).trace = s.trace := by unfold afterAddr; split <;> rfl
end

section
variable (s : State)
@[simp] theorem afterData_cmd : (afterData s).cmd = s.cmd := by unfold afterData; split <;> rfl
@[simp] theorem afterData_respVal : (afterData s).respVal = s.respVal := by unfold afterData; split <;> rfl
@[simp] theorem afterData_respErr : (afterData s).respErr = s.respErr := by unfold afterData; split <;> rfl
@[simp] theorem afterData_runState : (afterData s).runState = s.runState := by unfold afterData; split <;> rfl
@[simp] theorem afterData_sf : (afterData s).sf = s.sf := by unfold afterData; split <;> rfl
@[simp] theorem afterData_swapPending : (afterData s).swapPending = s.swapPending := by unfold afterData; split <;> rfl
@[simp] theorem afterData_active : (afterData s).active = s.active := by unfold afterData; split <;> rfl
@[simp] theorem afterData_irqPending : (afterData s).irqPending = s.irqPending := by unfold afterData; split <;> rfl
@[simp] theorem afterData_bright : (afterData s).bright = s.bright := by unfold afterData; split <;> rfl
@[simp] theorem afterData_c0 : (afterData s).c0 = s.c0 := by unfold afterData; split <;> rfl
@[simp] theorem afterData_encTarget : (afterData s).encTarget = s.encTarget := by unfold afterData; split <;> rfl
@[simp] theorem afterData_hostPos : (afterData s).hostPos = s.hostPos := by unfold afterData; split <;> rfl
@[simp] theorem afterData_desc : (afterData s).desc = s.desc := by unfold afterData; split <;> rfl
@[simp] theorem afterData_tmrPeriod : (afterData s).tmrPeriod = s.tmrPeriod := by unfold afterData; split <;> rfl
@[simp] theorem afterData_tmrCompare : (afterData s).tmrCompare = s.tmrCompare := by unfold afterData; split <;> rfl
@[simp] theorem afterData_addrPort : (afterData s).addrPort = s.addrPort := by unfold afterData; split <;> rfl
@[simp] theorem afterData_dataPort : (afterData s).dataPort = s.dataPort := by unfold afterData; split <;> rfl
@[simp] theorem afterData_mem : (afterData s).mem = s.mem := by unfold afterData; split <;> rfl
@[simp] theorem afterData_cfg : (afterData s).cfg = s.cfg := by unfold afterData; split <;> rfl
@[simp] theorem afterData_prog : (afterData s).prog = s.prog := by unfold afterData; split <;> rfl
@[simp] theorem afterData_sched : (afterData s).sched = s.sched := by unfold afterData; split <;> rfl
@[simp] theorem afterData_drawn : (afterData s).drawn = s.drawn := by unfold afterData; split <;> rfl
@[simp] theorem afterData_trace : (afterData s).trace = s.trace := by unfold afterData; split <;> rfl
end

section
variable (s : State)
@[simp] theorem stepADV_cmd : (stepADV s).cmd = s.cmd := by unfold stepADV; dsimp only; split <;> rfl
@[simp] theorem stepADV_respVal : (stepADV s).respVal = s.respVal := by unfold stepADV; dsimp only; split <;> rfl
@[simp] theorem stepADV_respErr : (stepADV s).respErr = s.respErr := by unfold stepADV; dsimp only; split <;> rfl
@[simp] theorem stepADV_runState : (stepADV s).runState = s.runState := by unfold stepADV; dsimp only; split <;> rfl
@[simp] theorem stepADV_swapPending : (stepADV s).swapPending = s.swapPending := by unfold stepADV; dsimp only; split <;> rfl
@[simp] theorem stepADV_active : (stepADV s).active = s.active := by unfold stepADV; dsimp only; split <;> rfl
@[simp] theorem stepADV_bright : (stepADV s).bright = s.bright := by unfold stepADV; dsimp only; split <;> rfl
@[simp] theorem stepADV_c0 : (stepADV s).c0 = s.c0 := by unfold stepADV; dsimp only; split <;> rfl
@[simp] theorem stepADV_encTarget : (stepADV s).encTarget = s.encTarget := by unfold stepADV; dsimp only; split <;> rfl
@[simp] theorem stepADV_hostPos : (stepADV s).hostPos = s.hostPos := by unfold stepADV; dsimp only; split <;> rfl
@[simp] theorem stepADV_desc : (stepADV s).desc = s.desc := by unfold stepADV; dsimp only; split <;> rfl
@[simp] theorem stepADV_tmrPeriod : (stepADV s).tmrPeriod = s.tmrPeriod := by unfold stepADV; dsimp only; split <;> rfl
@[simp] theorem stepADV_tmrCompare : (stepADV s).tmrCompare = s.tmrCompare := by unfold stepADV; dsimp only; split <;> rfl
@[simp] theorem stepADV_addrPort : (stepADV s).addrPort = s.addrPort := by unfold stepADV; dsimp only; split <;> rfl
@[simp] theorem stepADV_dataPort : (stepADV s).dataPort = s.dataPort := by unfold stepADV; dsimp only; split <;> rfl
@[simp] theorem stepADV_mem : (stepADV s).mem = s.mem := by unfold stepADV; dsimp only; split <;> rfl
@[simp] theorem stepADV_cfg : (stepADV s).cfg = s.cfg := by unfold stepADV; dsimp only; split <;> rfl
@[simp] theorem stepADV_prog : (stepADV s).prog = s.prog := by unfold stepADV; dsimp only; split <;> rfl
@[simp] theorem stepADV_sched : (stepADV s).sched = s.sched := by unfold stepADV; dsimp only; split <;> rfl
@[simp] theorem stepADV_drawn : (stepADV s).drawn = s.drawn := by unfold stepADV; dsimp only; split <;> rfl
end

section
variable (i : Nat) (s : State)
@[simp] theorem briAdvance_cmd : (briAdvance i s).cmd = s.cmd := by unfold briAdvance; split <;> rfl
@[simp] theorem briAdvance_runState : (briAdvance i s).runState = s.runState := by unfold briAdvance; split <;> rfl
@[simp] theorem briAdvance_sf : (briAdvance i s).sf = s.sf := by unfold briAdvance; split <;> rfl
@[simp] theorem briAdvance_phase : (briAdvance i s).phase = s.phase := by unfold briAdvance; split <;> rfl
@[simp] theorem briAdvance_idx : (briAdvance i s).idx = s.idx := by unfold briAdvance; split <;> rfl
@[simp] theorem briAdvance_swapPending : (briAdvance i s).swapPending = s.swapPending := by unfold briAdvance; split <;> rfl
@[simp] theorem briAdvance_active : (briAdvance i s).active = s.active := by unfold briAdvance; split <;> rfl
@[simp] theorem briAdvance_irqPending : (briAdvance i s).irqPending = s.irqPending := by unfold briAdvance; split <;> rfl
@[simp] theorem briAdvance_bright : (briAdvance i s).bright = s.bright := by unfold briAdvance; split <;> rfl
@[simp] theorem briAdvance_c0 : (briAdvance i s).c0 = s.c0 := by unfold briAdvance; split <;> rfl
@[simp] theorem briAdvance_encTarget : (briAdvance i s).encTarget = s.encTarget := by unfold briAdvance; split <;> rfl
@[simp] theorem briAdvance_desc : (briAdvance i s).desc = s.desc := by unfold briAdvance; split <;> rfl
@[simp] theorem briAdvance_tmrPeriod : (briAdvance i s).tmrPeriod = s.tmrPeriod := by unfold briAdvance; split <;> rfl
@[simp] theorem briAdvance_tmrCompare : (briAdvance i s).tmrCompare = s.tmrCompare := by unfold briAdvance; split <;> rfl
@[simp] theorem briAdvance_addrPort : (briAdvance i s).addrPort = s.addrPort := by unfold briAdvance; split <;> rfl
@[simp] theorem briAdvance_dataPort : (briAdvance i s).dataPort = s.dataPort := by unfold briAdvance; split <;> rfl
@[simp] theorem briAdvance_mem : (briAdvance i s).mem = s.mem := by unfold briAdvance; split <;> rfl
@[simp] theorem briAdvance_cfg : (briAdvance i s).cfg = s.cfg := by unfold briAdvance; split <;> rfl
@[simp] theorem briAdvance_prog : (briAdvance i s).prog = s.prog := by unfold briAdvance; split <;> rfl
@[simp] theorem briAdvance_sched : (briAdvance i s).sched = s.sched := by unfold briAdvance; split <;> rfl
@[simp] theorem briAdvance_drawn : (briAdvance i s).drawn = s.drawn := by unfold briAdvance; split <;> rfl
end

@[simp] theorem swapIfPending_swapPending (s : State) : (swapIfPending s).swapPending = false := by
  unfold swapIfPending; split <;> simp_all

@[simp] theorem swapIfPending_active (s : State) : (swapIfPending s).active = (s.active ^^ s.swapPending) := by
  unfold swapIfPending; split <;> simp_all

@[simp] theorem stepADV_phase (s : State) : (stepADV s).phase = .a := rfl

@[simp] theorem stepADV_idx (s : State) : (stepADV s).idx = 0 := rfl

theorem stepADV_sf (s : State) : (stepADV s).sf = if s.sf + 1 = s.cfg.nsf then 0 else s.sf + 1 := by
  unfold stepADV; dsimp only; split <;> rfl

theorem stepADV_irqPending (s : State) :
    (stepADV s).irqPending = (s.irqPending || decide (s.sf + 1 = s.cfg.nsf)) := by
  unfold stepADV; dsimp only; split <;> simp_all

theorem stepADV_trace (s : State) :
    (stepADV s).trace = s.trace ++ if s.sf + 1 = s.cfg.nsf then [.irq] else [] := by
  unfold stepADV; dsimp only; split <;> simp

/-! ### The six regions under a write to one of them -/

@[simp] theorem get_set_same (m : Regions) (r : Region) (c : Memory) : (m.set r c).get r = c := by cases r <;> rfl

theorem get_set_other (m : Regions) (r r' : Region) (c : Memory) (h : r' ≠ r) : (m.set r c).get r' = m.get r' := by
  cases r <;> cases r' <;> first | rfl | exact absurd rfl h

theorem get_set (m : Regions) (r r' : Region) (c : Memory) :
    (m.set r c).get r' = if r' = r then c else m.get r' := by
  split
  · next h => subst h; simp
  · next h => exact get_set_other m r r' c h

@[simp] theorem bs_ne_grid (a : Bool) : Region.bs a ≠ .grid := by cases a <;> decide
@[simp] theorem bs_ne_addrTbl (a : Bool) : Region.bs a ≠ .addrTbl := by cases a <;> decide
@[simp] theorem bs_ne_periodTbl (a : Bool) : Region.bs a ≠ .periodTbl := by cases a <;> decide
@[simp] theorem bs_ne_compareTbl (a : Bool) : Region.bs a ≠ .compareTbl := by cases a <;> decide
@[simp] theorem grid_ne_bs (a : Bool) : Region.grid ≠ Region.bs a := by cases a <;> decide
@[simp] theorem addrTbl_ne_bs (a : Bool) : Region.addrTbl ≠ Region.bs a := by cases a <;> decide
@[simp] theorem periodTbl_ne_bs (a : Bool) : Region.periodTbl ≠ Region.bs a := by cases a <;> decide
@[simp] theorem compareTbl_ne_bs (a : Bool) : Region.compareTbl ≠ Region.bs a := by cases a <;> decide
@[simp] theorem bs_inj (a b : Bool) : Region.bs a = Region.bs b ↔ a = b := by cases a <;> cases b <;> decide
@[simp] theorem bs_unlisted (a : Bool) : (Region.bs a).unlisted = none := by cases a <;> rfl

end Sys2Proof.Machine
end

