-- ==== Sys2Proof/Laws/Memory.lean ====
section
/-! SUPPORT. The laws of one region's contents: reading after writing, the canonical form kept by every operation, equal
contents equal lists, and whole entries. -/

namespace Sys2Proof.Machine

variable {d : Option Byte} {n lo off off' : Nat} {b : Byte} {m : Memory}

theorem wfFrom_cons {k : Nat} {v : Byte} {rest : Memory} :
    Memory.wfFrom d n lo ((k, v) :: rest) = true ↔
      lo ≤ k ∧ k < n ∧ d ≠ some v ∧ Memory.wfFrom d n (k + 1) rest = true := by
  simp [Memory.wfFrom, and_assoc]

theorem wfFrom_mono {lo' : Nat} (h : Memory.wfFrom d n lo m = true) (hl : lo' ≤ lo) :
    Memory.wfFrom d n lo' m = true := by
  cases m with
  | nil => rfl
  | cons e rest =>
    obtain ⟨k, v⟩ := e
    rw [wfFrom_cons] at h ⊢
    exact ⟨by omega, h.2⟩

/-- Below the first listed offset nothing is listed. -/
theorem read_below (h : Memory.wfFrom d n lo m = true) (ho : off < lo) : Memory.read d m off = d := by
  induction m generalizing lo with
  | nil => rfl
  | cons e rest ih =>
    obtain ⟨k, v⟩ := e
    rw [wfFrom_cons] at h
    rw [Memory.read, if_neg (by omega)]
    exact ih h.2.2.2 (by omega)

/-- An offset the region does not have reads as unlisted. -/
theorem read_beyond (h : Memory.wfFrom d n lo m = true) (ho : n ≤ off) : Memory.read d m off = d := by
  induction m generalizing lo with
  | nil => rfl
  | cons e rest ih =>
    obtain ⟨k, v⟩ := e
    rw [wfFrom_cons] at h
    rw [Memory.read, if_neg (by omega)]
    exact ih h.2.2.2

/-- Reading after a write: the byte written, and every other offset as before. -/
theorem read_write (h : Memory.wfFrom d n lo m = true) :
    Memory.read d (Memory.write d m off b) off' = if off' = off then some b else Memory.read d m off' := by
  induction m generalizing lo with
  | nil =>
    by_cases hd : d = some b
    · simp [Memory.write, Memory.read, hd]
    · by_cases ho : off' = off
      · simp [Memory.write, Memory.read, hd, ho]
      · simp [Memory.write, Memory.read, hd, ho, Ne.symm ho]
  | cons e rest ih =>
    obtain ⟨k, v⟩ := e
    rw [wfFrom_cons] at h
    obtain ⟨hk, hn, hv, hr⟩ := h
    simp only [Memory.write]
    split
    · next hlt =>
      have hrest : Memory.read d ((k, v) :: rest) off = d :=
        read_below (lo := k) (n := n) (wfFrom_cons.2 ⟨le_refl k, hn, hv, hr⟩) hlt
      split
      · next hd =>
        split
        · next ho => subst ho; rw [hrest, hd]
        · rfl
      · conv_lhs => rw [Memory.read]
        by_cases ho : off' = off
        · rw [if_pos ho.symm, if_pos ho]
        · rw [if_neg (Ne.symm ho), if_neg ho]
    · next hlt =>
      split
      · next hk' =>
        subst hk'
        have hrest : Memory.read d rest off = d := read_below hr (Nat.lt_succ_self _)
        split
        · next hd =>
          split
          · next ho => subst ho; rw [hrest, hd]
          · next ho => rw [Memory.read, if_neg (Ne.symm ho)]
        · by_cases ho : off' = off
          · simp [Memory.read, ho]
          · simp [Memory.read, ho, Ne.symm ho]
      · next hk' =>
        rw [Memory.read, Memory.read, ih hr]
        by_cases hko : k = off'
        · rw [if_pos hko, if_pos hko, if_neg (by omega)]
        · rw [if_neg hko, if_neg hko]

/-- A write inside the region keeps the canonical form. -/
theorem wfFrom_write (h : Memory.wfFrom d n lo m = true) (hl : lo ≤ off) (hn : off < n) :
    Memory.wfFrom d n lo (Memory.write d m off b) = true := by
  induction m generalizing lo with
  | nil =>
    simp only [Memory.write]
    split
    · rfl
    · next hd => exact wfFrom_cons.2 ⟨hl, hn, hd, rfl⟩
  | cons e rest ih =>
    obtain ⟨k, v⟩ := e
    have h0 := h
    rw [wfFrom_cons] at h
    obtain ⟨hk, hkn, hv, hr⟩ := h
    simp only [Memory.write]
    split
    · next hlt =>
      split
      · exact h0
      · next hd => exact wfFrom_cons.2 ⟨hl, hn, hd, wfFrom_cons.2 ⟨hlt, hkn, hv, hr⟩⟩
    · split
      · next hlt hk' =>
        subst hk'
        split
        · exact wfFrom_mono hr (by omega)
        · next hd => exact wfFrom_cons.2 ⟨hk, hn, hd, hr⟩
      · next hlt hk' => exact wfFrom_cons.2 ⟨hk, hkn, hv, ih hr (by omega)⟩

theorem wf_write (h : Memory.wf d n m = true) (hn : off < n) : Memory.wf d n (Memory.write d m off b) = true :=
  wfFrom_write h (Nat.zero_le _) hn

/-! ### Filling a region -/

theorem filterMap_range' (f : Nat → Byte) (s k : Nat) (hn : s + k ≤ n) :
    Memory.wfFrom d n s ((List.range' s k).filterMap fun o => if d = some (f o) then none else some (o, f o)) = true := by
  induction k generalizing s with
  | zero => rfl
  | succ k ih =>
    rw [List.range'_succ, List.filterMap_cons]
    have h1 := ih (s + 1) (by omega)
    by_cases hd : d = some (f s)
    · rw [if_pos hd]; exact wfFrom_mono h1 (by omega)
    · rw [if_neg hd]; exact wfFrom_cons.2 ⟨le_refl s, by omega, hd, h1⟩

/-- Filling keeps the canonical form. -/
theorem wf_fill {k : Nat} (f : Nat → Byte) (h : k ≤ n) : Memory.wf d n (Memory.fill d k f) = true := by
  unfold Memory.wf Memory.fill
  rw [List.range_eq_range']
  exact filterMap_range' f 0 k (by omega)

theorem read_filterMap_range' (f : Nat → Byte) (s k : Nat) :
    Memory.read d ((List.range' s k).filterMap fun o => if d = some (f o) then none else some (o, f o)) off =
      if s ≤ off ∧ off < s + k then some (f off) else d := by
  induction k generalizing s with
  | zero => rw [if_neg (by omega)]; rfl
  | succ k ih =>
    rw [List.range'_succ, List.filterMap_cons]
    by_cases hd : d = some (f s)
    · rw [if_pos hd]
      simp only [ih (s + 1)]
      by_cases hs : off = s
      · subst hs; rw [if_neg (by omega), if_pos (by omega), hd]
      · by_cases hi : s + 1 ≤ off ∧ off < s + 1 + k
        · rw [if_pos hi, if_pos (by omega)]
        · rw [if_neg hi, if_neg (by omega)]
    · rw [if_neg hd]
      simp only [Memory.read, ih (s + 1)]
      by_cases hs : s = off
      · subst hs; rw [if_pos rfl, if_pos (by omega)]
      · rw [if_neg hs]
        by_cases hi : s + 1 ≤ off ∧ off < s + 1 + k
        · rw [if_pos hi, if_pos (by omega)]
        · rw [if_neg hi, if_neg (by omega)]

/-- Reading a filled region: f below the fill's length, unlisted above. -/
theorem read_fill (k : Nat) (f : Nat → Byte) :
    Memory.read d (Memory.fill d k f) off = if off < k then some (f off) else d := by
  unfold Memory.fill
  rw [List.range_eq_range', read_filterMap_range']
  simp

/-! ### Equal contents are equal lists -/

theorem read_self {v : Byte} (h : Memory.wfFrom d n lo ((off, v) :: m) = true) :
    Memory.read d ((off, v) :: m) off = some v ∧ d ≠ some v := by
  rw [wfFrom_cons] at h
  exact ⟨by simp [Memory.read], h.2.2.1⟩

/-- The canonical form is canonical: contents that read alike are the same list. -/
theorem wfFrom_ext {m' : Memory} (h : Memory.wfFrom d n lo m = true) (h' : Memory.wfFrom d n lo m' = true)
    (he : ∀ off, Memory.read d m off = Memory.read d m' off) : m = m' := by
  induction m generalizing lo m' with
  | nil =>
    cases m' with
    | nil => rfl
    | cons e' rest' =>
      obtain ⟨k', v'⟩ := e'
      have := read_self h'
      exact absurd ((he k').trans this.1) this.2
  | cons e rest ih =>
    obtain ⟨k, v⟩ := e
    cases m' with
    | nil =>
      have := read_self h
      exact absurd ((he k).symm.trans this.1) this.2
    | cons e' rest' =>
      obtain ⟨k', v'⟩ := e'
      have r1 := read_self h
      have r2 := read_self h'
      have c := wfFrom_cons.1 h
      have c' := wfFrom_cons.1 h'
      have hkk : k = k' := by
        rcases Nat.lt_trichotomy k k' with hlt | heq | hgt
        · have := read_below (d := d) (n := n) (wfFrom_cons.2 ⟨le_refl k', c'.2⟩) hlt
          exact absurd (this.symm.trans ((he k).symm.trans r1.1)) r1.2
        · exact heq
        · have := read_below (d := d) (n := n) (wfFrom_cons.2 ⟨le_refl k, c.2⟩) hgt
          exact absurd (this.symm.trans ((he k').trans r2.1)) r2.2
      subst hkk
      have hv : v = v' := Option.some.inj (r1.1.symm.trans ((he k).trans r2.1))
      subst hv
      congr 1
      refine ih c.2.2.2 c'.2.2.2 fun o => ?_
      by_cases ho : k = o
      · subst ho
        rw [read_below c.2.2.2 (Nat.lt_succ_self _), read_below c'.2.2.2 (Nat.lt_succ_self _)]
      · have := he o
        simpa [Memory.read, ho] using this

/-! ### Whole entries -/

/-- A load depends on the bytes it spans alone. -/
theorem loadLE_congr {m' : Memory} {base count : Nat}
    (h : ∀ i, i < count → Memory.read d m (base + i) = Memory.read d m' (base + i)) :
    Memory.loadLE d m base count = Memory.loadLE d m' base count := by
  induction count generalizing base with
  | zero => rfl
  | succ c ih =>
    have h0 := h 0 (by omega)
    have h1 := ih (base := base + 1) fun i hi => by
      have := h (i + 1) (by omega)
      rwa [show base + (i + 1) = base + 1 + i by omega] at this
    simp only [Memory.loadLE, h1]
    rw [show base = base + 0 from rfl, h0]

/-- A store keeps the canonical form. -/
theorem wf_storeLE {base count v : Nat} (h : Memory.wf d n m = true) (hn : base + count ≤ n) :
    Memory.wf d n (Memory.storeLE d m base count v) = true := by
  induction count generalizing base v m with
  | zero => exact h
  | succ c ih => exact ih (wf_write h (by omega)) (by omega)

/-- A store leaves every offset outside its bytes alone. -/
theorem read_storeLE_other {base count v : Nat} (h : Memory.wf d n m = true) (hn : base + count ≤ n)
    (ho : off < base ∨ base + count ≤ off) : Memory.read d (Memory.storeLE d m base count v) off = Memory.read d m off := by
  induction count generalizing base v m with
  | zero => rfl
  | succ c ih =>
    rw [Memory.storeLE, ih (wf_write h (by omega)) (by omega) (by omega), read_write h, if_neg (by omega)]

/-- The bytes a store leaves, the low byte first. -/
theorem read_storeLE {base count v i : Nat} (h : Memory.wf d n m = true) (hn : base + count ≤ n) (hi : i < count) :
    Memory.read d (Memory.storeLE d m base count v) (base + i) = some (BitVec.ofNat 8 (v / 256 ^ i)) := by
  induction count generalizing base v m i with
  | zero => omega
  | succ c ih =>
    rw [Memory.storeLE]
    cases i with
    | zero =>
      rw [read_storeLE_other (wf_write h (by omega)) (by omega) (by omega), read_write h]
      simp
    | succ j =>
      rw [show base + (j + 1) = base + 1 + j by omega, ih (wf_write h (by omega)) (by omega) (by omega),
        Nat.div_div_eq_div_mul, Nat.pow_succ']

/-- Bytes that are a number's, the low byte first, load as that number. -/
theorem loadLE_of_bytes {base count v : Nat}
    (h : ∀ i, i < count → Memory.read d m (base + i) = some (BitVec.ofNat 8 (v / 256 ^ i))) :
    Memory.loadLE d m base count = some (v % 256 ^ count) := by
  induction count generalizing base v with
  | zero => simp [Memory.loadLE, Nat.mod_one]
  | succ c ih =>
    have h0 := h 0 (by omega)
    have h1 := ih (base := base + 1) (v := v / 256) fun i hi => by
      have := h (i + 1) (by omega)
      rwa [show base + (i + 1) = base + 1 + i by omega, Nat.pow_succ', ← Nat.div_div_eq_div_mul] at this
    simp only [Nat.add_zero, pow_zero, Nat.div_one] at h0
    simp only [Memory.loadLE, h0, h1, BitVec.toNat_ofNat, Nat.reducePow]
    rw [Nat.pow_succ', Nat.mod_mul]

/-- A load after a store to the same place: the number's low bytes. -/
theorem loadLE_storeLE {base count v : Nat} (h : Memory.wf d n m = true) (hn : base + count ≤ n) :
    Memory.loadLE d (Memory.storeLE d m base count v) base count = some (v % 256 ^ count) :=
  loadLE_of_bytes fun _ hi => read_storeLE h hn hi

/-- A load from elsewhere does not see a store. -/
theorem loadLE_storeLE_other {base count v base' count' : Nat} (h : Memory.wf d n m = true) (hn : base + count ≤ n)
    (ho : base' + count' ≤ base ∨ base + count ≤ base') :
    Memory.loadLE d (Memory.storeLE d m base count v) base' count' = Memory.loadLE d m base' count' :=
  loadLE_congr fun _ _ => read_storeLE_other h hn (by omega)

/-- A load has a value when every byte it spans has one. -/
theorem loadLE_isSome {base count : Nat} (h : ∀ i, i < count → ∃ b, Memory.read d m (base + i) = some b) :
    ∃ v, Memory.loadLE d m base count = some v := by
  induction count generalizing base with
  | zero => exact ⟨0, rfl⟩
  | succ c ih =>
    obtain ⟨b, hb⟩ := h 0 (by omega)
    obtain ⟨v, hv⟩ := ih (base := base + 1) fun i hi => by
      have := h (i + 1) (by omega)
      rwa [show base + (i + 1) = base + 1 + i by omega] at this
    exact ⟨b.toNat + 256 * v, by simp only [Memory.loadLE, hv]; rw [show base = base + 0 from rfl, hb]⟩

/-- GRID has a value at every offset. -/
theorem read_isSome_of_default {v : Byte} (m : Memory) (off : Nat) : ∃ b, Memory.read (some v) m off = some b := by
  induction m with
  | nil => exact ⟨v, rfl⟩
  | cons e rest ih =>
    obtain ⟨k, w⟩ := e
    rw [Memory.read]
    split
    · exact ⟨w, rfl⟩
    · exact ih

end Sys2Proof.Machine
end

