-- ==== Sys2Proof/Laws/Ops.lean ====
section
/-! SUPPORT. For each shared operation of Machine/Ops.lean, once, everything it can do: when it answers, what it answers, what
it changes and what it leaves. -/

namespace Sys2Proof.Machine

/-! ### The configuration's arithmetic -/

theorem entryBytes_bounds {c : Config} (h : c.Ok) : 1 ≤ c.entryBytes ∧ c.entryBytes ≤ 4 := by
  have := h.1.2.2.2.2.2.2.2.2.2.2.2.1
  unfold Config.entryBytes; omega

theorem tw_le {c : Config} (h : c.Ok) : c.tw ≤ 32 := h.1.2.2.2.2.2.2.2.2.2.2.2.1.2

/-- An entry's bytes hold TW bits. -/
theorem two_pow_tw_le (c : Config) : 2 ^ c.tw ≤ 256 ^ c.entryBytes := by
  rw [show (256 : Nat) = 2 ^ 8 from rfl, ← Nat.pow_mul]
  exact Nat.pow_le_pow_right (by omega) (by unfold Config.entryBytes; omega)

theorem truncEntry_toNat {c : Config} (h : c.tw ≤ 32) (v : Nat) : (truncEntry c v).toNat = v % 2 ^ c.tw := by
  have h1 : v % 2 ^ c.tw < 2 ^ c.tw := Nat.mod_lt _ (by positivity)
  have h2 : 2 ^ c.tw ≤ 2 ^ 32 := Nat.pow_le_pow_right (by omega) h
  rw [truncEntry, BitVec.toNat_ofNat, Nat.mod_eq_of_lt (by omega)]

/-- Where CFG_OK holds a region has the bytes its geometry needs (R9, R60). -/
theorem regionBytes_ok {c : Config} (h : c.Ok) :
    regionBytes c .grid = c.gridBytes ∧ (∀ a, regionBytes c (Region.bs a) = c.bsBytes) ∧
    regionBytes c .addrTbl = c.addrBytes ∧ regionBytes c .periodTbl = c.ttEntries * c.entryBytes ∧
    regionBytes c .compareTbl = c.ttEntries * c.entryBytes := by
  obtain ⟨-, h1, h2, h3, h4, -⟩ := h
  refine ⟨min_eq_left h1, fun a => ?_, min_eq_left h3, ?_, ?_⟩
  · cases a <;> exact min_eq_left h2
  · exact congrArg (· * c.entryBytes) (min_eq_left h4)
  · exact congrArg (· * c.entryBytes) (min_eq_left h4)

theorem gridBytes_eq {c : Config} (h : c.Ok) : c.gridBytes = c.rows * c.cols * 3 := by
  rw [Config.gridBytes, h.1.2.2.2.1]

theorem bsBytes_eq {c : Config} (h : c.Ok) : c.bsBytes = c.nsf * c.slice := by
  rw [Config.bsBytes, Config.nsf, Config.slice, h.1.2.2.2.2.1]; ring

theorem addrBytes_eq (c : Config) : c.addrBytes = c.nsf * c.addrRepeat := by
  rw [Config.addrBytes, Config.nsf]; ring

theorem ttEntries_eq (c : Config) : c.ttEntries = c.nsf := by
  rw [Config.ttEntries, Config.nsf]; ring

theorem nsf_pos {c : Config} (h : c.Ok) : 0 < c.nsf :=
  Nat.mul_pos (by have := h.1.1; omega) (by have := h.1.2.2.1; omega)

theorem slice_pos {c : Config} (h : c.Ok) : 0 < c.slice := by
  have := h.1.2.1
  unfold Config.slice; omega

theorem addrRepeat_pos {c : Config} (h : c.Ok) : 0 < c.addrRepeat := by
  have := h.1.2.2.2.2.2.1; omega

theorem bitDepth_pos {c : Config} (h : c.Ok) : 0 < c.bitDepth := by
  have := h.1.2.2.1; omega

theorem planeOf_lt {c : Config} (h : c.Ok) (sf : Nat) : c.planeOf sf < c.bitDepth := Nat.mod_lt _ (bitDepth_pos h)

/-- No period overflows an entry (R9, R180). -/
theorem periodEntry_lt {c : Config} (h : c.Ok) (i : Nat) : periodEntry c i < 2 ^ c.tw := by
  have h1 : c.tUnit * 2 ^ (c.bitDepth - 1) ≤ 2 ^ c.tw - 1 := h.2.2.2.2.2
  have h2 := planeOf_lt h i
  have h3 : c.tUnit * 2 ^ c.planeOf i ≤ c.tUnit * 2 ^ (c.bitDepth - 1) :=
    Nat.mul_le_mul_left _ (Nat.pow_le_pow_right (by omega) (by omega))
  have h4 : 0 < 2 ^ c.tw := by positivity
  unfold periodEntry periodOf; omega

/-- A compare value is at most its period when C0 is at most T_UNIT (R182, R184). -/
theorem compareEntry_le {c : Config} {c0 : Nat} (h : c0 ≤ c.tUnit) (i : Nat) : compareEntry c c0 i ≤ periodEntry c i :=
  Nat.mul_le_mul_right _ h

theorem tUnit_lt {c : Config} (h : c.Ok) : c.tUnit < 2 ^ c.tw := by
  have h1 : c.tUnit * 2 ^ (c.bitDepth - 1) ≤ 2 ^ c.tw - 1 := h.2.2.2.2.2
  have h2 : c.tUnit * 1 ≤ c.tUnit * 2 ^ (c.bitDepth - 1) := Nat.mul_le_mul_left _ Nat.one_le_two_pow
  have h4 : 0 < 2 ^ c.tw := by positivity
  omega

/-! ### Going on after an access -/

@[simp] theorem attempt_ok {α : Type} (a : α) (k : α → Result) : attempt (.ok a) k = k a := rfl
@[simp] theorem attempt_error {α : Type} (f : Fault) (k : α → Result) : attempt (.error f) k = .fault f := rfl

/-- An access goes on to a next state only through its value. -/
theorem attempt_next {α : Type} {e : Except Fault α} {k : α → Result} {t : State} :
    attempt e k = .next t ↔ ∃ a, e = .ok a ∧ k a = .next t := by
  cases e <;> simp

/-! ### Bytes -/

/-- A byte read answers exactly the byte the model reads there, inside the region. -/
theorem readByte_ok {r : Region} {off : Nat} {s : State} {b : Byte} :
    readByte r off s = .ok b ↔ off < regionBytes s.cfg r ∧ s.byteAt r off = some b := by
  unfold readByte
  split
  · cases s.byteAt r off <;> simp_all
  · simp_all

/-- A byte write answers inside the region, and the state it answers has that one region changed. -/
theorem writeByte_ok {r : Region} {off : Nat} {b : Byte} {s t : State} :
    writeByte r off b s = .ok t ↔
      off < regionBytes s.cfg r ∧ t = s.setRegion r (Memory.write r.unlisted (s.mem.get r) off b) := by
  unfold writeByte
  split <;> simp_all [eq_comm]

/-- Replacing one region's contents by well-formed contents keeps every region well formed. -/
theorem memoryWf_setRegion {s : State} {r : Region} {m : Memory} (h : MemoryWf s)
    (hm : Memory.wf r.unlisted (regionBytes s.cfg r) m = true) : MemoryWf (s.setRegion r m) := by
  intro r'
  rw [setRegion_cfg, setRegion_mem, get_set]
  split
  · next he => subst he; exact hm
  · exact h r'

/-- What is read after a byte write: the byte there, everything else as before. -/
theorem writeByte_spec {r : Region} {off : Nat} {b : Byte} {s t : State} (h : writeByte r off b s = .ok t)
    (hw : MemoryWf s) :
    MemoryWf t ∧ ∀ r' off', t.byteAt r' off' = if r' = r ∧ off' = off then some b else s.byteAt r' off' := by
  obtain ⟨hlt, rfl⟩ := writeByte_ok.1 h
  refine ⟨memoryWf_setRegion hw (wf_write (hw r) hlt), fun r' off' => ?_⟩
  unfold State.byteAt
  rw [setRegion_mem, get_set]
  by_cases hr : r' = r
  · subst hr
    rw [if_pos rfl, read_write (hw r')]
    simp
  · rw [if_neg hr, if_neg (fun hc => hr hc.1)]

/-! ### Entries -/

theorem readEntry_ok {r : Region} {i : Nat} {s : State} {v : Word32} :
    readEntry r i s = .ok v ↔
      (i + 1) * s.cfg.entryBytes ≤ regionBytes s.cfg r ∧ ∃ n, s.entryAt r i = some n ∧ v = BitVec.ofNat 32 n := by
  unfold readEntry
  split
  · cases s.entryAt r i <;> simp_all [eq_comm]
  · simp_all

theorem writeEntry_ok {r : Region} {i v : Nat} {s t : State} :
    writeEntry r i v s = .ok t ↔
      (i + 1) * s.cfg.entryBytes ≤ regionBytes s.cfg r ∧
      t = s.setRegion r (Memory.storeLE r.unlisted (s.mem.get r) (i * s.cfg.entryBytes) s.cfg.entryBytes
        (truncEntry s.cfg v).toNat) := by
  unfold writeEntry
  split <;> simp_all [eq_comm]

/-- What is read after an entry write: the entry whole, every other entry and every other region as before (R68). -/
theorem writeEntry_spec {r : Region} {i v : Nat} {s t : State} (h : writeEntry r i v s = .ok t) (hw : MemoryWf s)
    (ht : s.cfg.tw ≤ 32) :
    MemoryWf t ∧ t.entryAt r i = some (v % 2 ^ s.cfg.tw) ∧
    (∀ j, j ≠ i → t.entryAt r j = s.entryAt r j) ∧
    (∀ r' off, r' ≠ r → t.byteAt r' off = s.byteAt r' off) ∧ (∀ r' j, r' ≠ r → t.entryAt r' j = s.entryAt r' j) ∧
    (∀ off, off < i * s.cfg.entryBytes ∨ (i + 1) * s.cfg.entryBytes ≤ off → t.byteAt r off = s.byteAt r off) := by
  obtain ⟨hle, rfl⟩ := writeEntry_ok.1 h
  have hb : i * s.cfg.entryBytes + s.cfg.entryBytes ≤ regionBytes s.cfg r := by
    rw [Nat.add_mul, Nat.one_mul] at hle; exact hle
  refine ⟨memoryWf_setRegion hw (wf_storeLE (hw r) hb), ?_, fun j hj => ?_, fun r' off hr => ?_, fun r' j hr => ?_,
    fun off ho => ?_⟩
  · unfold State.entryAt
    rw [setRegion_mem, setRegion_cfg, get_set_same, loadLE_storeLE (hw r) hb, truncEntry_toNat ht, Nat.mod_eq_of_lt]
    exact lt_of_lt_of_le (Nat.mod_lt _ (by positivity)) (two_pow_tw_le _)
  · unfold State.entryAt
    rw [setRegion_mem, setRegion_cfg, get_set_same, loadLE_storeLE_other (hw r) hb]
    rcases Nat.lt_or_gt_of_ne hj with hlt | hgt
    · left
      have := Nat.mul_le_mul_right s.cfg.entryBytes (Nat.succ_le_of_lt hlt)
      rw [Nat.succ_mul] at this; exact this
    · right
      have := Nat.mul_le_mul_right s.cfg.entryBytes (Nat.succ_le_of_lt hgt)
      rw [Nat.succ_mul] at this; exact this
  · unfold State.byteAt; rw [setRegion_mem, get_set_other _ _ _ _ hr]
  · unfold State.entryAt; rw [setRegion_mem, setRegion_cfg, get_set_other _ _ _ _ hr]
  · unfold State.byteAt
    rw [setRegion_mem, get_set_same, read_storeLE_other (hw r) hb]
    rw [Nat.add_mul, Nat.one_mul] at ho; exact ho

/-- An entry the region has can be written. -/
theorem writeEntry_defined {r : Region} {i v : Nat} {s : State} (hc : s.cfg.Ok) (hi : i < s.cfg.ttEntries)
    (hr : r = .periodTbl ∨ r = .compareTbl) : ∃ t, writeEntry r i v s = .ok t := by
  refine ⟨_, writeEntry_ok.2 ⟨?_, rfl⟩⟩
  have h1 := regionBytes_ok hc
  have h2 : (i + 1) * s.cfg.entryBytes ≤ s.cfg.ttEntries * s.cfg.entryBytes := Nat.mul_le_mul_right _ hi
  rcases hr with rfl | rfl
  · rw [h1.2.2.2.1]; exact h2
  · rw [h1.2.2.2.2]; exact h2

/-! ### Whole regions -/

/-- What is read after a byte region is written whole. -/
theorem fillBytes_spec {r : Region} {n : Nat} {f : Nat → Byte} {s : State} (hw : MemoryWf s)
    (hn : n ≤ regionBytes s.cfg r) :
    MemoryWf (fillBytes r n f s) ∧
    (∀ off, (fillBytes r n f s).byteAt r off = if off < n then some (f off) else r.unlisted) ∧
    (∀ r' off, r' ≠ r → (fillBytes r n f s).byteAt r' off = s.byteAt r' off) ∧
    (∀ r' i, r' ≠ r → (fillBytes r n f s).entryAt r' i = s.entryAt r' i) := by
  refine ⟨memoryWf_setRegion hw (wf_fill f hn), fun off => ?_, fun r' off hr => ?_, fun r' i hr => ?_⟩
  · unfold State.byteAt; rw [fillBytes_mem, get_set_same, read_fill]
  · unfold State.byteAt; rw [fillBytes_mem, get_set_other _ _ _ _ hr]
  · unfold State.entryAt; rw [fillBytes_mem, fillBytes_cfg, get_set_other _ _ _ _ hr]

/-- What is read after a timing region is written whole. -/
theorem fillEntries_spec {r : Region} {f : Nat → Nat} {s : State} (hc : s.cfg.Ok) (hw : MemoryWf s)
    (hr : r = .periodTbl ∨ r = .compareTbl) :
    MemoryWf (fillEntries r f s) ∧
    (∀ i, i < s.cfg.ttEntries → (fillEntries r f s).entryAt r i = some (f i % 2 ^ s.cfg.tw)) ∧
    (∀ r' off, r' ≠ r → (fillEntries r f s).byteAt r' off = s.byteAt r' off) ∧
    (∀ r' i, r' ≠ r → (fillEntries r f s).entryAt r' i = s.entryAt r' i) := by
  have h1 := regionBytes_ok hc
  have hn : s.cfg.ttEntries * s.cfg.entryBytes ≤ regionBytes s.cfg r := by
    rcases hr with rfl | rfl
    · exact h1.2.2.2.1.ge
    · exact h1.2.2.2.2.ge
  have hf := fillBytes_spec (f := entryByte s.cfg f) hw hn
  refine ⟨hf.1, fun i hi => ?_, hf.2.2.1, hf.2.2.2⟩
  have heb := entryBytes_bounds hc
  have hload : (fillEntries r f s).entryAt r i =
      Memory.loadLE r.unlisted ((fillEntries r f s).mem.get r) (i * s.cfg.entryBytes) s.cfg.entryBytes := rfl
  rw [hload, loadLE_of_bytes (v := (truncEntry s.cfg (f i)).toNat), truncEntry_toNat (tw_le hc), Nat.mod_eq_of_lt]
  · exact lt_of_lt_of_le (Nat.mod_lt _ (by positivity)) (two_pow_tw_le _)
  · intro k hk
    have hlt : i * s.cfg.entryBytes + k < s.cfg.ttEntries * s.cfg.entryBytes := by
      have := Nat.mul_le_mul_right s.cfg.entryBytes (Nat.succ_le_of_lt hi)
      rw [Nat.succ_mul] at this; omega
    have := hf.2.1 (i * s.cfg.entryBytes + k)
    rw [if_pos hlt] at this
    have hdiv : (i * s.cfg.entryBytes + k) / s.cfg.entryBytes = i := by
      rw [Nat.mul_comm, Nat.mul_add_div (by omega), Nat.div_eq_of_lt hk]; omega
    have hmod : (i * s.cfg.entryBytes + k) % s.cfg.entryBytes = k := by
      rw [Nat.mul_comm, Nat.mul_add_mod, Nat.mod_eq_of_lt hk]
    rw [entryByte, hdiv, hmod] at this
    exact this

/-! ### Runs -/

@[simp] theorem turns_nil (s : State) : turns [] s = .next s := rfl

theorem turns_cons {a : Agent} {as : List Agent} {s t u : State} (h : turn a s = .next t) (h' : turns as t = .next u) :
    turns (a :: as) s = .next u := by
  rw [turns, h]; exact h'

/-- Runs compose. -/
theorem turns_append (as bs : List Agent) (s : State) :
    turns (as ++ bs) s = match turns as s with
      | .next t => turns bs t
      | .fault f => .fault f
      | .refused r => .refused r := by
  induction as generalizing s with
  | nil => rfl
  | cons a as ih =>
    simp only [List.cons_append, turns]
    cases turn a s with
    | next t => exact ih t
    | fault f => rfl
    | refused r => rfl

theorem turns_append_next {as bs : List Agent} {s t u : State} (h : turns as s = .next t) (h' : turns bs t = .next u) :
    turns (as ++ bs) s = .next u := by
  rw [turns_append, h]; exact h'

end Sys2Proof.Machine
end

