-- ==== Sys2Proof/Laws/Builders.lean ====
section
/-! SUPPORT. For each builder BEGIN and SHOW share, once, what is read afterwards: the Address Table, the Timing Table, a Bitstream
Buffer; and what the invariant of a state depends on. -/

namespace Sys2Proof.Machine

/-- Reading depends on the regions alone. -/
theorem byteAt_congr {s t : State} (h : t.mem = s.mem) (r : Region) (off : Nat) : t.byteAt r off = s.byteAt r off := by
  unfold State.byteAt; rw [h]

/-- Reading an entry depends on the regions and the configuration alone. -/
theorem entryAt_congr {s t : State} (h : t.mem = s.mem) (hc : t.cfg = s.cfg) (r : Region) (i : Nat) :
    t.entryAt r i = s.entryAt r i := by
  unfold State.entryAt; rw [h, hc]

theorem memoryWf_congr {s t : State} (h : t.mem = s.mem) (hc : t.cfg = s.cfg) (hw : MemoryWf s) : MemoryWf t := by
  intro r; rw [h, hc]; exact hw r

/-- What is read after ADDR_TBL <- BuildAddr() (R173). -/
theorem buildAddrTable_spec {s : State} (hc : s.cfg.Ok) (hw : MemoryWf s) :
    MemoryWf (buildAddrTable s) ∧
    (∀ off, off < s.cfg.addrBytes → (buildAddrTable s).byteAt .addrTbl off = some (buildAddrAt s.cfg off)) ∧
    (∀ r off, r ≠ .addrTbl → (buildAddrTable s).byteAt r off = s.byteAt r off) := by
  have h := fillBytes_spec (r := .addrTbl) (n := s.cfg.addrBytes) (f := buildAddrAt s.cfg) hw
    (regionBytes_ok hc).2.2.1.ge
  exact ⟨h.1, fun off ho => (h.2.1 off).trans (if_pos ho), h.2.2.1⟩

/-- What is read after BuildTiming(C0) is written (R183), C0 at most T_UNIT. -/
theorem buildTimingTable_spec {s : State} (hc : s.cfg.Ok) (hw : MemoryWf s) (h0 : s.c0.toNat ≤ s.cfg.tUnit) :
    MemoryWf (buildTimingTable s) ∧
    (∀ i, i < s.cfg.ttEntries → (buildTimingTable s).entryAt .periodTbl i = some (periodEntry s.cfg i)) ∧
    (∀ i, i < s.cfg.ttEntries →
      (buildTimingTable s).entryAt .compareTbl i = some (compareEntry s.cfg s.c0.toNat i)) ∧
    (∀ r off, r ≠ .periodTbl → r ≠ .compareTbl → (buildTimingTable s).byteAt r off = s.byteAt r off) := by
  have h1 := fillEntries_spec (f := periodEntry s.cfg) hc hw (.inl rfl)
  have hc' : (fillEntries .periodTbl (periodEntry s.cfg) s).cfg.Ok := hc
  have h2 := fillEntries_spec (f := compareEntry s.cfg s.c0.toNat) hc' h1.1 (.inr rfl)
  refine ⟨h2.1, fun i hi => ?_, fun i hi => ?_, fun r off hp hcm => ?_⟩
  · exact (h2.2.2.2 _ _ (by decide)).trans ((h1.2.1 i hi).trans (by rw [Nat.mod_eq_of_lt (periodEntry_lt hc i)]))
  · have := h2.2.1 i hi
    rw [fillEntries_cfg, Nat.mod_eq_of_lt (lt_of_le_of_lt (compareEntry_le h0 i) (periodEntry_lt hc i))] at this
    exact this
  · exact (h2.2.2.1 _ _ hcm).trans (h1.2.2.1 _ _ hp)

/-- What is read after Encode of a grid is written into BS[a] (R155 S2, R232). -/
theorem encodeInto_spec {s : State} {a : Bool} {g : Nat → Byte} (hc : s.cfg.Ok) (hw : MemoryWf s) :
    MemoryWf (encodeInto a g s) ∧
    (∀ off, off < s.cfg.bsBytes → (encodeInto a g s).byteAt (Region.bs a) off = some (encodeAt s.cfg g off)) ∧
    (∀ off, s.cfg.bsBytes ≤ off → (encodeInto a g s).byteAt (Region.bs a) off = none) ∧
    (∀ r off, r ≠ Region.bs a → (encodeInto a g s).byteAt r off = s.byteAt r off) ∧
    (∀ r i, r ≠ Region.bs a → (encodeInto a g s).entryAt r i = s.entryAt r i) := by
  have h := fillBytes_spec (r := Region.bs a) (n := s.cfg.bsBytes) (f := encodeAt s.cfg g) hw
    ((regionBytes_ok hc).2.1 a).ge
  refine ⟨h.1, fun off ho => (h.2.1 off).trans (if_pos ho), fun off ho => ?_, h.2.2.1, h.2.2.2⟩
  exact (h.2.1 off).trans ((if_neg (by omega)).trans (bs_unlisted a))

/-- What is read after both buffers are blanked (R232). -/
theorem blankBuffers_spec {s : State} (hc : s.cfg.Ok) (hw : MemoryWf s) :
    MemoryWf (blankBuffers s) ∧
    (∀ a off, off < s.cfg.bsBytes →
      (blankBuffers s).byteAt (Region.bs a) off = some (encodeAt s.cfg blackGrid off)) ∧
    (∀ r off, (∀ a, r ≠ Region.bs a) → (blankBuffers s).byteAt r off = s.byteAt r off) ∧
    (∀ r i, (∀ a, r ≠ Region.bs a) → (blankBuffers s).entryAt r i = s.entryAt r i) := by
  have h1 := encodeInto_spec (a := false) (g := blackGrid) hc hw
  have hc' : (encodeInto false blackGrid s).cfg.Ok := hc
  have h2 := encodeInto_spec (a := true) (g := blackGrid) hc' h1.1
  refine ⟨h2.1, fun a off ho => ?_, fun r off hr => ?_, fun r i hr => ?_⟩
  · cases a
    · exact (h2.2.2.2.1 _ _ (by decide)).trans (h1.2.1 off ho)
    · exact h2.2.1 off ho
  · exact (h2.2.2.2.1 _ _ (hr true)).trans (h1.2.2.2.1 _ _ (hr false))
  · exact (h2.2.2.2.2 _ _ (hr true)).trans (h1.2.2.2.2 _ _ (hr false))

/-- The product's floor is at most T_UNIT for a brightness (R181). -/
theorem c0Of_le {c : Config} {b : Word32} (hb : isBrightness b = true) : c0Of c b ≤ c.tUnit := by
  have hb' : b.toNat ≤ 0x3F800000 := by simpa [isBrightness] using hb
  have he : (f32Exp b).toNat = b.toNat / 2 ^ 23 % 2 ^ 8 := by
    rw [f32Exp, BitVec.extractLsb'_toNat, Nat.shiftRight_eq_div_pow]
  have hf : (f32Frac b).toNat = b.toNat % 2 ^ 23 := by
    rw [f32Frac, BitVec.extractLsb'_toNat, Nat.shiftRight_eq_div_pow, pow_zero, Nat.div_one]
  unfold c0Of
  simp only [hb, if_true]
  split
  · apply Nat.div_le_of_le_mul
    have h1 : (f32Frac b).toNat ≤ 2 ^ 149 := by rw [hf]; omega
    exact Nat.mul_le_mul_right _ h1
  · apply Nat.div_le_of_le_mul
    refine Nat.mul_le_mul_right _ ?_
    rcases Nat.lt_or_ge (f32Exp b).toNat 127 with h | h
    · have h24 : 2 ^ 24 ≤ 2 ^ (150 - (f32Exp b).toNat) := Nat.pow_le_pow_right (by omega) (by omega)
      have : (f32Frac b).toNat < 2 ^ 23 := by rw [hf]; omega
      omega
    · have h127 : (f32Exp b).toNat = 127 := by omega
      have : (f32Frac b).toNat = 0 := by omega
      rw [h127, this]; norm_num

/-- C0 latched from a brightness is the product's floor (R186, R232). -/
theorem latchC0_toNat {s : State} (h : s.cfg.Ok) (hb : isBrightness s.bright = true) :
    (latchC0 s).c0.toNat = c0Of s.cfg s.bright := by
  rw [latchC0_c0, truncEntry_toNat (tw_le h), Nat.mod_eq_of_lt]
  exact lt_of_le_of_lt (c0Of_le hb) (tUnit_lt h)

/-- The clamped pattern is a brightness (R185, R29). -/
theorem clamp_isBrightness (f : Word32) : isBrightness (clamp f) = true := by
  unfold clamp
  split
  · decide
  · split
    · decide
    · split
      · decide
      · next hn hs hm =>
        have hmag : (f32Magnitude f).toNat = f.toNat % 2 ^ 31 := by
          rw [f32Magnitude, BitVec.extractLsb'_toNat, Nat.shiftRight_eq_div_pow, pow_zero, Nat.div_one]
        have hsign : f.toNat < 2 ^ 31 := by
          have h31 : f32Sign f = f.msb := by simp [f32Sign, BitVec.msb_eq_getLsbD_last]
          rw [h31, BitVec.msb_eq_decide] at hs
          simpa using hs
        simp only [isBrightness, decide_eq_true_eq]
        omega

/-- The state's invariant carries over to a state that differs in no region, not in the configuration, the brightness or C0,
when no SETBRI has come into flight and what is left of it holds there. -/
theorem inv_of_same_memory {s t : State} (h : Inv s) (hc : t.cfg = s.cfg) (hm : t.mem = s.mem) (hb : t.bright = s.bright)
    (h0 : t.c0 = s.c0) (hp : ∀ i, t.hostPos = .bri i → s.hostPos = .bri i) (ht : ShowTargetsBack t)
    (ha : t.runState = .running → s.runState = .running ∧ ScanInRange t ∧ IrqOnlyAtBoundary t ∧ DescriptorsProgrammed t) :
    Inv t := by
  have hby : ∀ r o, t.byteAt r o = s.byteAt r o := byteAt_congr hm
  have hen : ∀ r o, t.entryAt r o = s.entryAt r o := entryAt_congr hm hc
  refine ⟨hc ▸ h.config, memoryWf_congr hm hc h.memory, ?_, ht, fun hr => ?_⟩
  · refine ⟨hb ▸ h.brightness.1, fun hu => ?_⟩
    rw [h0, hc]
    exact h.brightness.2 (hu.imp (fun hr => (ha hr).1) fun ⟨i, hi⟩ => ⟨i, hp i hi⟩)
  · obtain ⟨hr', h1, h2, h3⟩ := ha hr
    have a := h.armed hr'
    refine ⟨?_, ?_, ?_, h1, h2, h3⟩
    · unfold TablesBuilt; simp only [hby, hen, hc]; exact a.tables
    · unfold ComparesContained; simp only [hen, hc]; exact a.compares
    · unfold BuffersWritten; simp only [hby, hc]; exact a.buffers

end Sys2Proof.Machine
end

