-- ==== Sys2Proof/Laws/Decode.lean ====
section
/-! SUPPORT. How a command's fields and its word's mask read, as numbers and bit by bit: what proofs about the encodings cite. -/

namespace Sys2Proof

/-! ### Concatenation and slices, as numbers -/

/-- A concatenation is its high part shifted up, plus its low part. -/
theorem toNat_append_eq {m n : Nat} (x : BitVec m) (y : BitVec n) : (x ++ y).toNat = x.toNat * 2 ^ n + y.toNat := by
  rw [BitVec.toNat_append, Nat.shiftLeft_eq, Nat.mul_comm, Nat.two_pow_add_eq_or_of_lt y.isLt]

/-- A slice is a quotient and a remainder. -/
theorem toNat_slice {n : Nat} (w : BitVec n) (lo len : Nat) :
    (w.extractLsb' lo len).toNat = w.toNat / 2 ^ lo % 2 ^ len := by
  simp [Nat.shiftRight_eq_div_pow]

/-! ### A format's word under its row's mask -/

/-- Format N keeps every bit. -/
theorem formatN_masked (op : Byte) : formatN op &&& 0xFFFFFFFFFFFFFFFF#64 = op ++ 0#56 := by
  have h : (0xFFFFFFFFFFFFFFFF#64 : BitVec 64) = BitVec.allOnes 64 := by decide
  rw [h, BitVec.and_allOnes]; rfl

/-- Format C under OP and its must-be-zero bits. -/
theorem formatC_masked (op : Byte) (col row : Nat) (r g b : Byte) :
    formatC op col row r g b &&& 0xFF0000000000FFFF#64 = op ++ 0#56 := by
  apply BitVec.eq_of_getLsbD_eq
  intro i hi
  simp only [formatC, BitVec.getLsbD_and, BitVec.getLsbD_append]
  interval_cases i <;> simp

/-- Format P under OP and its must-be-zero bits. -/
theorem formatP_masked (op : Byte) (col row : Nat) (pix : BitVec 24) :
    formatP op col row pix &&& 0xFF0000000000FFFF#64 = op ++ 0#56 := by
  apply BitVec.eq_of_getLsbD_eq
  intro i hi
  simp only [formatP, BitVec.getLsbD_and, BitVec.getLsbD_append]
  interval_cases i <;> simp

/-- Format G, val8 zero, under LDG's mask. -/
theorem formatG_zero_masked (op : Byte) (off : Nat) :
    formatG op off 0#8 &&& 0xFF0000FFFFFFFFFF#64 = op ++ 0#56 := by
  apply BitVec.eq_of_getLsbD_eq
  intro i hi
  simp only [formatG, BitVec.getLsbD_and, BitVec.getLsbD_append]
  interval_cases i <;> simp

/-- Format G under STG's mask. -/
theorem formatG_masked (op : Byte) (off : Nat) (val8 : Byte) :
    formatG op off val8 &&& 0xFF000000FFFFFFFF#64 = op ++ 0#56 := by
  apply BitVec.eq_of_getLsbD_eq
  intro i hi
  simp only [formatG, BitVec.getLsbD_and, BitVec.getLsbD_append]
  interval_cases i <;> simp

/-- Format F under OP and its must-be-zero bits. -/
theorem formatF_masked (op : Byte) (f32 : Word32) :
    formatF op f32 &&& 0xFFFFFFFF00000000#64 = op ++ 0#56 := by
  apply BitVec.eq_of_getLsbD_eq
  intro i hi
  simp only [formatF, BitVec.getLsbD_and, BitVec.getLsbD_append]
  interval_cases i <;> simp

end Sys2Proof
end

