-- ==== Sys2Proof/Laws/Frames.lean ====
section
/-! SUPPORT. What a turn can change, once, for every agent and every command: the frames that the statements about who writes
what are read off. -/

namespace Sys2Proof.Machine

/-- What the turns of CHAIN, REFRESH and ENV leave alone: the regions, the configuration, the HOST's own state and responses, the
brightness; RUNSTATE does not become RUNNING, swap_pending does not become 1, ACTIVE flips only with a swap pending. -/
theorem turn_frame_of_not_host {s t : State} {a : Agent} (ha : a ≠ .host) (e : turn a s = .next t) :
    t.mem = s.mem ∧ t.cfg = s.cfg ∧ t.bright = s.bright ∧ t.c0 = s.c0 ∧ t.hostPos = s.hostPos ∧ t.cmd = s.cmd ∧
    t.prog = s.prog ∧ t.encTarget = s.encTarget ∧ t.respErr = s.respErr ∧ t.respVal = s.respVal ∧
    (t.runState = .running → s.runState = .running) ∧ (t.swapPending = true → s.swapPending = true) ∧
    (s.swapPending = false → t.active = s.active) := by
  cases a
  case host => exact absurd rfl ha
  case chain =>
    simp only [turn, chainTurn] at e
    split at e
    · split at e
      · cases e; simp
      · unfold chainMove at e
        split at e
        · obtain ⟨v, -, h⟩ := attempt_next.1 e; cases h; simp
        · obtain ⟨v, -, h⟩ := attempt_next.1 e; cases h; simp
        · obtain ⟨v, -, h⟩ := attempt_next.1 e; cases h; simp
        · obtain ⟨v, -, h⟩ := attempt_next.1 e; cases h; simp
        · cases e; simp
    all_goals cases e; simp
  case refresh =>
    simp only [turn, refreshTurn] at e
    split at e
    · cases e; simp [refreshStep]; intro h; simp [h]
    · cases e; simp
  case env =>
    simp only [turn, envTurn] at e
    split at e <;> cases e <;> simp

/-- What a turn of the HOST can do: nothing, the next step of the command in flight, or the first step of a new one. -/
theorem hostTurn_cases {s t : State} (e : turn .host s = .next t) :
    t = s ∨ ∃ s1, (s1 = s ∧ s.hostPos ≠ .none ∨ ∃ w ws, s1 = issue w ws s ∧ s.hostPos = .none) ∧
      runCommand s1 = .next t := by
  simp only [turn, hostTurn] at e
  split at e
  · cases e; exact .inl rfl
  · exact .inr ⟨_, .inr ⟨_, _, rfl, by assumption⟩, e⟩
  · next h1 h2 =>
    refine .inr ⟨s, .inl ⟨rfl, fun hn => ?_⟩, e⟩
    cases hp : s.prog with
    | nil => exact h1 hn hp
    | cons w ws => exact h2 w ws hn hp

/-- A pixel write, or its RANGE_ERR, changes GRID and the response alone. -/
theorem setPixel_frame {s t : State} {col row : Nat} {r g b : Byte} (e : setPixel col row r g b s = .next t) :
    t = { s with
      mem := { s.mem with grid := t.mem.grid }
      respErr := t.respErr, respVal := t.respVal, hostPos := .none, trace := t.trace } ∧
    ∃ e, t.trace = s.trace ++ [e] := by
  unfold setPixel at e
  split at e
  · obtain ⟨s1, e1, e⟩ := attempt_next.1 e
    obtain ⟨s2, e2, e⟩ := attempt_next.1 e
    obtain ⟨s3, e3, e⟩ := attempt_next.1 e
    obtain ⟨-, rfl⟩ := writeByte_ok.1 e1
    obtain ⟨-, rfl⟩ := writeByte_ok.1 e2
    obtain ⟨-, rfl⟩ := writeByte_ok.1 e3
    cases e; exact ⟨rfl, _, rfl⟩
  · cases e; exact ⟨rfl, _, rfl⟩

/-- What a command's step can change, whichever command it is: the configuration, CMD and the HOST's program never; the trace by
one event at most; every other piece of state only by the commands whose rules name it. -/
theorem exec_frame {i : Instr} {s t : State} (e : exec i s = .next t) :
    t.cfg = s.cfg ∧ t.cmd = s.cmd ∧ t.prog = s.prog ∧ (t.trace = s.trace ∨ ∃ e, t.trace = s.trace ++ [e]) ∧
    (i ≠ .beginCmd → t.runState = s.runState ∧ t.sf = s.sf ∧ t.phase = s.phase ∧ t.idx = s.idx ∧ t.active = s.active ∧
      t.irqPending = s.irqPending ∧ t.desc = s.desc ∧ t.mem.addrTbl = s.mem.addrTbl) ∧
    ((∀ f, i ≠ .setbri f) → t.bright = s.bright ∧ (i ≠ .beginCmd → t.c0 = s.c0 ∧
      t.mem.periodTbl = s.mem.periodTbl ∧ t.mem.compareTbl = s.mem.compareTbl)) ∧
    (i ≠ .showCmd → i ≠ .beginCmd → t.swapPending = s.swapPending ∧ t.encTarget = s.encTarget ∧
      t.mem.bs0 = s.mem.bs0 ∧ t.mem.bs1 = s.mem.bs1) ∧
    (i ≠ .showCmd → (∀ f, i ≠ .setbri f) → t.hostPos = .none) := by
  cases i with
  | beginCmd =>
    simp only [exec, execBegin] at e
    split at e <;> cases e <;> simp [beginEffect, beginRefusal, buildAddrTable, buildTimingTable, blankBuffers]
  | setpix col row r g b => obtain ⟨h1, e, h2⟩ := setPixel_frame e; rw [h1]; simp [h2]
  | setpixp col row pix => obtain ⟨h1, e, h2⟩ := setPixel_frame e; rw [h1]; simp [h2]
  | getpix => cases e; simp
  | bufwait => cases e; simp
  | getbri => cases e; simp
  | showCmd =>
    simp only [exec, execShow] at e
    split at e
    · split at e <;> cases e <;> simp
      · rcases hb : s.encTarget <;> simp [showEncode, hb, Regions.set, Region.bs]
    · cases e
  | setbri f =>
    simp only [exec, execSetbri] at e
    split at e
    · split at e
      · next i hp =>
        unfold briWrite at e
        split at e
        · obtain ⟨u, h1, h⟩ := attempt_next.1 e
          cases h
          obtain ⟨-, rfl⟩ := writeEntry_ok.1 h1
          simp [briRegion]
          unfold briAdvance
          split <;> split <;> simp [Regions.set]
        · cases e; simp
      all_goals cases e; simp [briClamp]
    · cases e
  | ldg off =>
    simp only [exec, execLdg] at e
    split at e
    · obtain ⟨v, -, h⟩ := attempt_next.1 e; cases h; simp
    · cases e; simp
  | stg off v =>
    simp only [exec, execStg] at e
    split at e
    · obtain ⟨u, h1, h⟩ := attempt_next.1 e; cases h
      obtain ⟨-, rfl⟩ := writeByte_ok.1 h1
      simp [Regions.set]
    · cases e; simp

end Sys2Proof.Machine
end

