-- ==== Sys2Proof/Laws/PerInstr.lean ====
section
/-! SUPPORT. The families of LAWS.json: one statement of a command's syntax, one lemma per command. -/

namespace Sys2Proof.Laws.RowOfMnemonic

/-- The command's word belongs to the row of spec/opcode_table.json that has the command's mnemonic, whatever its operands. -/
def Statement (i : Instr) : Prop := ∃ row ∈ opcodeRows, row.mnemonic = i.mnemonic ∧ row.covers (encode i) = true

theorem beginCmd : Statement .beginCmd := by unfold Statement; decide

theorem setpix (col row : Nat) (r g b : Byte) : Statement (.setpix col row r g b) :=
  ⟨⟨"SETPIX", _, _⟩, .tail _ (.head _), rfl, by simp [OpcodeRow.covers, encode, formatC_masked]⟩

theorem setpixp (col row : Nat) (pix : BitVec 24) : Statement (.setpixp col row pix) :=
  ⟨⟨"SETPIXP", _, _⟩, .tail _ (.tail _ (.head _)), rfl, by simp [OpcodeRow.covers, encode, formatP_masked]⟩

theorem getpix : Statement .getpix := by unfold Statement; decide

theorem ldg (off : Nat) : Statement (.ldg off) :=
  ⟨⟨"LDG", _, _⟩, .tail _ (.tail _ (.tail _ (.tail _ (.head _)))), rfl,
    by simp [OpcodeRow.covers, encode, formatG_zero_masked]⟩

theorem stg (off : Nat) (val8 : Byte) : Statement (.stg off val8) :=
  ⟨⟨"STG", _, _⟩, .tail _ (.tail _ (.tail _ (.tail _ (.tail _ (.head _))))), rfl,
    by simp [OpcodeRow.covers, encode, formatG_masked]⟩

theorem showCmd : Statement .showCmd := by unfold Statement; decide

theorem bufwait : Statement .bufwait := by unfold Statement; decide

theorem setbri (f32 : Word32) : Statement (.setbri f32) :=
  ⟨⟨"SETBRI", _, _⟩, .tail _ (.tail _ (.tail _ (.tail _ (.tail _ (.tail _ (.tail _ (.tail _ (.head _)))))))), rfl,
    by simp [OpcodeRow.covers, encode, formatF_masked]⟩

theorem getbri : Statement .getbri := by unfold Statement; decide

end Sys2Proof.Laws.RowOfMnemonic
end

