-- ==== Sys2Proof/Tests/Slice0.lean ====
section
/-! SUPPORT. Tests: commands' words from R91's formats, ill-formed commands refused, one-step vectors of
95_test_vectors.md, and for each statement with hypotheses a state and operands that meet them. -/

open Sys2Proof Sys2Proof.Machine

namespace Sys2Proof.Tests

/-! ### WellFormed refuses what does not fit its field (R91) -/

theorem test_setpix_col_too_wide : WellFormed (.setpix 256 0 0#8 0#8 0#8) = false := by decide
theorem test_setpix_row_too_wide : WellFormed (.setpix 0 256 0#8 0#8 0#8) = false := by decide
theorem test_setpixp_col_too_wide : WellFormed (.setpixp 256 0 0#24) = false := by decide
theorem test_setpixp_row_too_wide : WellFormed (.setpixp 0 256 0#24) = false := by decide
theorem test_ldg_off_too_wide : WellFormed (.ldg 65536) = false := by decide
theorem test_stg_off_too_wide : WellFormed (.stg 65536 0#8) = false := by decide

/-! ### Words written out from R91's formats decode to their commands -/

theorem test_decode_begin : decode (0b00000001#8 ++ 0#56) = .ok .beginCmd := by decide
theorem test_decode_setpix :
    decode (0b00000010#8 ++ 0b10000001#8 ++ 0b01000010#8 ++ 0b00100100#8 ++ 0b00011000#8 ++ 0b11111110#8 ++ 0#16) =
      .ok (.setpix 129 66 36#8 24#8 254#8) := by decide
theorem test_decode_setpixp :
    decode (0b00000011#8 ++ 0b00000011#8 ++ 0b00000010#8 ++ 0b00010000#8 ++ 0b00100000#8 ++ 0b00110000#8 ++ 0#16) =
      .ok (.setpixp 3 2 0x102030#24) := by decide
theorem test_decode_getpix : decode (0b00000100#8 ++ 0#56) = .ok .getpix := by decide
theorem test_decode_ldg : decode (0b00000101#8 ++ 0b1000000000111001#16 ++ 0#40) = .ok (.ldg 32825) := by decide
theorem test_decode_stg :
    decode (0b00000110#8 ++ 0b0000000010111111#16 ++ 0b10101010#8 ++ 0#32) = .ok (.stg 191 0xAA#8) := by decide
theorem test_decode_show : decode (0b00000111#8 ++ 0#56) = .ok .showCmd := by decide
theorem test_decode_bufwait : decode (0b00001000#8 ++ 0#56) = .ok .bufwait := by decide
theorem test_decode_setbri :
    decode (0b00001001#8 ++ 0#24 ++ 0b10111111000000000000000000000001#32) = .ok (.setbri 0xBF000001#32) := by decide
theorem test_decode_getbri : decode (0b00001010#8 ++ 0#56) = .ok .getbri := by decide

/-- 2.1's illegal words, each under its own name (R94). -/
theorem test_decode_illegal :
    decode 0x0000000000000000#64 = .error (.reservedOpcode 0x00#8) ∧
    decode 0xFF00000000000000#64 = .error (.reservedOpcode 0xFF#8) ∧
    decode 0x0700000000000001#64 = .error (.mustBeZero 0x07#8) ∧
    decode 0x0500390001000000#64 = .error (.mustBeZero 0x05#8) ∧
    decode 0x090000013F000000#64 = .error (.mustBeZero 0x09#8) ∧
    decode 0x0A0000003F800000#64 = .error (.mustBeZero 0x0A#8) := by decide

/-- Encoding gives 2.1's words. -/
theorem test_encode :
    encode (.setpix 7 7 1#8 2#8 3#8) = 0x0207070102030000#64 ∧ encode (.stg 0 4#8) = 0x0600000400000000#64 ∧
    encode (.setbri 0x3F000000#32) = 0x090000003F000000#64 := by decide

/-! ### One step each, on 95_test_vectors.md's values -/

/-- What f sees after one step, if the step answers a next state. -/
def seen {α : Type} (f : State → α) (s : State) : Option α :=
  match step s with
  | .next t => some (f t)
  | .fault _ => none
  | .refused _ => none

/-- The response of a step: RESP_ERR, RESP_VAL. -/
def response (s : State) : Option (Byte × Word32) := seen (fun t => (t.respErr, t.respVal)) s

/-- Right after reset, the HOST about to issue a word. -/
def issuing (w : Nat) : State := State.reset.withFetchWord 64 w

/-- 2.7: a compare entry and the last byte of BS1. -/
theorem test_begin_builds :
    seen (fun t => (t.respErr, t.runState, t.entryAt .compareTbl 63, t.byteAt .bs1 1023)) (issuing 0x0100000000000000) =
      some (0#8, .running, some 32768, some 0x08#8) := by decide +kernel
/-- 2.7: REF but CAP_BS = 1023. -/
theorem test_begin_refuses :
    seen (fun t => (t.respErr, t.runState, t.mem.bs0)) { issuing 0x0100000000000000 with cfg := { Config.ref with capBs := 1023 } } =
      some (1#8, .cfgFault, []) := by decide +kernel
/-- 2.1: the last pixel. -/
theorem test_setpix_last :
    seen (fun t => (t.byteAt .grid 189, t.byteAt .grid 190, t.byteAt .grid 191)) (issuing 0x0207070102030000) =
      some (some 1#8, some 2#8, some 3#8) := by decide
/-- SP7, 2.2 line 6: col = COLS. -/
theorem test_setpix_outside :
    seen (fun t => (t.respErr, t.mem.grid)) (issuing 0x0208000102030000) = some (2#8, []) := by decide
/-- 2.2 line 2. -/
theorem test_setpixp :
    seen (fun t => t.mem.grid) (issuing 0x0303021020300000) = some [(57, 0x10#8), (58, 0x20#8), (59, 0x30#8)] := by decide
/-- 2.2 line 13. -/
theorem test_getpix : response (issuing 0x0400000000000000) = some (0#8, 0#32) := by decide
/-- 2.2 line 3. -/
theorem test_ldg :
    response ((issuing 0x0500390000000000).setRegion .grid [(57, 0x10#8), (58, 0x20#8)]) = some (0#8, 0x10#32) := by decide
/-- 2.2 line 9: off = GRID_BYTES. -/
theorem test_ldg_outside : response (issuing 0x0500C00000000000) = some (2#8, 0#32) := by decide
/-- 2.2 line 11. -/
theorem test_stg : seen (fun t => t.mem.grid) (issuing 0x0600BFAA00000000) = some [(191, 0xAA#8)] := by decide
/-- 2.2 line 10. -/
theorem test_stg_outside : seen (fun t => (t.respErr, t.mem.grid)) (issuing 0x0600C0AA00000000) = some (2#8, []) := by decide
/-- R155 S1: a pending swap retracted, the target latched from ACTIVE = 1. -/
theorem test_show_retracts :
    seen (fun t => (t.swapPending, t.encTarget, t.hostPos))
      { issuing 0x0700000000000000 with swapPending := true, active := true } = some (false, false, .show1) := by decide
/-- SP5: S2 with one red pixel at (0, 0), the second pair and the pair of plane 7. -/
theorem test_show_encodes :
    seen (fun t => (t.byteAt .bs1 0, t.byteAt .bs1 1, t.byteAt .bs1 3, t.byteAt .bs1 113))
      { (issuing 0).setRegion .grid [(0, 0xFF#8)] with cmd := 0x0700000000000000#64, encTarget := true, hostPos := .show1 } =
      some (some 0x01#8, some 0x09#8, some 0x08#8, some 0x09#8) := by decide +kernel
/-- SP8: BUFWAIT after a SHOW and before a REFRESH. -/
theorem test_bufwait : response { issuing 0x0800000000000000 with swapPending := true } = some (0#8, 1#32) := by decide
/-- R189: SETBRI 0.1. -/
theorem test_setbri_clamps :
    seen (fun t => (t.bright, t.c0, t.hostPos)) (issuing 0x090000003DCCCCCD) = some (0x3DCCCCCD#32, 25#32, .bri 0) := by decide
/-- 2.10: W(79) writes COMPARE_TBL[39]. -/
theorem test_setbri_writes :
    seen (fun t => (t.entryAt .compareTbl 39, t.hostPos))
      { issuing 0 with cmd := 0x090000003F000000#64, c0 := 128#32, hostPos := .bri 79 } = some (some 16384, .bri 80) := by decide
/-- 2.1. -/
theorem test_getbri : response (issuing 0x0A00000000000000) = some (0#8, 0x3F800000#32) := by decide

/-! ### The transforms, on the spec's second configuration -/

/-- ALT (2.4). -/
def alt : Config :=
  { Config.ref with
    rows := 2, cols := 4, bitDepth := 4, addrRepeat := 3, rPos := 2, gPos := 1, bPos := 0, clkPos := 7, idleBits := 0x40#8
    colOrder := [3, 2, 1, 0], rowCodes := [0x10#8, 0x12#8], tUnit := 100, brightReset := 0x3F000000#32
    capGrid := 24, capBs := 64, capAddr := 24, capTt := 8 }

theorem test_alt_ok : alt.Ok := by decide
/-- 2.6: REF with T_UNIT = 511 is CFG_OK, with 512 it is not. -/
theorem test_ref_tUnit : Config.Ok { Config.ref with tUnit := 511 } ∧ ¬ Config.Ok { Config.ref with tUnit := 512 } :=
  ⟨by decide, by decide⟩
/-- 2.4: slices sf 0 and sf 7 of Encode. -/
theorem test_alt_encode :
    let g := gridOf [(0, 0x0F#8), (1, 0x05#8), (2, 0x08#8), (21, 0xF0#8), (22, 0x03#8), (23, 0x0A#8)]
    (List.range 8).map (encodeAt alt g) = [0x40#8, 0xC0#8, 0x40#8, 0xC0#8, 0x40#8, 0xC0#8, 0x46#8, 0xC6#8] ∧
    (List.range 8).map (fun j => encodeAt alt g (56 + j)) = [0x41#8, 0xC1#8, 0x40#8, 0xC0#8, 0x40#8, 0xC0#8, 0x40#8, 0xC0#8] := by
  decide
/-- 2.5. -/
theorem test_alt_addr : (List.range 24).map (buildAddrAt alt) = List.replicate 12 0x10#8 ++ List.replicate 12 0x12#8 := by decide
/-- 2.6: C0 of ALT. -/
theorem test_alt_c0 :
    [0x3F000000#32, 0x3E99999A#32, 0x3E947AE1#32, 0x3C23D70A#32, 0x3F7EB852#32, 0x3F800000#32].map (c0Of alt) =
      [50, 30, 28, 0, 99, 100] := by decide
/-- R189, 2.6: Clamp. -/
theorem test_clamp :
    [0x3F800001#32, 0x7F7FFFFF#32, 0x7F800000#32, 0x7F800001#32, 0xFF800000#32, 0xFFC00000#32, 0x80000001#32, 0x80000000#32,
      0xBF800000#32, 0x00000001#32, 0x3F7FFFFF#32].map clamp =
    [0x3F800000#32, 0x3F800000#32, 0x3F800000#32, 0#32, 0#32, 0#32, 0#32, 0#32, 0#32, 0x00000001#32, 0x3F7FFFFF#32] := by decide

/-! ### States that meet the statements' hypotheses -/

/-- The smallest panel with two planes: one pixel, two sub-frames of two address bytes and two data bytes. -/
def onePixel : Config :=
  { Config.ref with
    rows := 1, cols := 1, bitDepth := 2, colOrder := [0], rowCodes := [0x30#8], tw := 8, tUnit := 100
    capGrid := 3, capBs := 4, capAddr := 4, capTt := 2 }

/-- REF with a grid region one byte short: not CFG_OK. -/
def shortGrid : Config := { Config.ref with capGrid := 191 }

/-- BEGIN on the one-pixel panel. -/
def armed : State := beginEffect (State.resetOf onePixel)

/-- The same, the scan elsewhere and the flags as given. -/
def armedAt (sf : Nat) (ph : Phase) (idx : Nat) (irq swap : Bool) : State :=
  { armed with sf := sf, phase := ph, idx := idx, irqPending := irq, swapPending := swap }

/-- The same with the HOST about to issue word w. -/
def armedIssuing (w : Command) : State := { armed with prog := [w], sched := [.host] }

theorem wit_onePixel : onePixel.Ok := by decide
theorem wit_ref : Config.ref.Ok := by decide
theorem wit_shortGrid : ¬ shortGrid.Ok := by decide

theorem wit_reset_wf : MemoryWf State.reset := fun r => by cases r <;> rfl

theorem wit_armed_tables : TablesBuilt armed := by unfold TablesBuilt; decide +kernel

theorem wit_armed_compares : ComparesBuilt armed := by unfold ComparesBuilt; decide +kernel

theorem wit_armed_c0 : armed.c0.toNat ≤ armed.cfg.tUnit := by decide +kernel

theorem wit_armed_contained : ComparesContained armed :=
  fun i hi => ⟨_, wit_armed_compares i hi, Nat.mul_le_mul_right _ wit_armed_c0⟩

theorem wit_armed_buffers : BuffersWritten armed := by
  have h : ∀ a, ∀ off, off < armed.cfg.bsBytes → (armed.byteAt (Region.bs a) off).isSome = true := by decide +kernel
  exact fun a off ho => Option.isSome_iff_exists.1 (h a off ho)

theorem wit_armed_wf : MemoryWf armed := fun r => by cases r <;> decide +kernel

theorem wit_armed_brightness : BrightnessInRange armed := ⟨by decide +kernel, fun _ => wit_armed_c0⟩

/-- The invariant at any scan position in range, the interrupt pending at the boundary at most. -/
theorem inv_armedAt (sf : Nat) (ph : Phase) (idx : Nat) (irq swap : Bool) (h1 : ScanInRange (armedAt sf ph idx irq swap))
    (h2 : IrqOnlyAtBoundary (armedAt sf ph idx irq swap)) : Inv (armedAt sf ph idx irq swap) where
  config := wit_onePixel
  memory := wit_armed_wf
  brightness := wit_armed_brightness
  target := by rintro (h | h) <;> cases h
  armed _ := ⟨wit_armed_tables, wit_armed_contained, wit_armed_buffers, h1, h2, rfl⟩

/-- The invariant of the same with a program, a command and its position in the HOST's hands, and a brightness latched. -/
theorem inv_hosting (s : State) (prog : List Command) (sched : List Agent) (h : Inv s) :
    Inv { s with prog := prog, sched := sched } where
  config := h.config
  memory := h.memory
  brightness := h.brightness
  target := h.target
  armed hr := ⟨(h.armed hr).tables, (h.armed hr).compares, (h.armed hr).buffers, (h.armed hr).scan, (h.armed hr).irq,
    (h.armed hr).descriptors⟩

theorem wit_inv_a : Inv (armedAt 0 .a 0 false false) :=
  inv_armedAt _ _ _ _ _ ⟨by decide, by show 0 < 2; decide⟩ (fun h => by cases h)
theorem wit_inv_a_last : Inv (armedAt 1 .a 1 false true) :=
  inv_armedAt _ _ _ _ _ ⟨by decide, by show 1 < 2; decide⟩ (fun h => by cases h)
theorem wit_inv_p : Inv (armedAt 1 .p 0 false false) := inv_armedAt _ _ _ _ _ ⟨by decide, rfl⟩ (fun h => by cases h)
theorem wit_inv_c : Inv (armedAt 1 .c 0 false false) := inv_armedAt _ _ _ _ _ ⟨by decide, rfl⟩ (fun h => by cases h)
theorem wit_inv_d : Inv (armedAt 0 .d 0 false false) :=
  inv_armedAt _ _ _ _ _ ⟨by decide, by show 0 < 2; decide⟩ (fun h => by cases h)
theorem wit_inv_d_last : Inv (armedAt 1 .d 1 false false) :=
  inv_armedAt _ _ _ _ _ ⟨by decide, by show 1 < 2; decide⟩ (fun h => by cases h)
theorem wit_inv_w : Inv (armedAt 0 .w 2 false false) := inv_armedAt _ _ _ _ _ ⟨by decide, rfl⟩ (fun h => by cases h)
theorem wit_inv_w_last : Inv (armedAt 1 .w 2 false true) := inv_armedAt _ _ _ _ _ ⟨by decide, rfl⟩ (fun h => by cases h)
theorem wit_inv_irq : Inv (armedAt 0 .a 0 true true) :=
  inv_armedAt _ _ _ _ _ ⟨by decide, by show 0 < 2; decide⟩ (fun _ => rfl)

/-! ### A witness for each statement's hypotheses, and for each clause of one -/

/-- StepRunsTheDecodedCommand: a fresh word, a command in flight, another agent's turn, no turn fixed, and a HOST turn with nothing
to do. -/
theorem wit_StepRunsTheDecodedCommand :
    (∃ (s : State) (rest : List Agent) (w : Command) (ws : List Command), s.sched = Agent.host :: rest ∧ s.hostPos = .none ∧ s.prog = w :: ws ∧ decode w = .ok (.stg 191 0xAA#8) ∧
      WellFormed (.stg 191 0xAA#8) = true) ∧
    (∃ (s : State) (rest : List Agent), s.sched = Agent.host :: rest ∧ s.hostPos ≠ .none ∧ decode s.cmd = .ok .showCmd ∧
      WellFormed .showCmd = true) ∧
    ({ armed with sched := [.chain] } : State).sched = [.chain] ∧ State.reset.sched = [] ∧
    (∃ s : State, s.sched = [.host] ∧ s.hostPos = .none ∧ s.prog = []) :=
  ⟨⟨issuing 0x0600BFAA00000000, [], 0x0600BFAA00000000#64, [], rfl, rfl, rfl, by decide, rfl⟩,
    ⟨{ issuing 0 with cmd := 0x0700000000000000#64, hostPos := .show2 }, [], rfl, by decide, by decide, rfl⟩,
    rfl, rfl, { State.reset with sched := [.host] }, rfl, rfl, rfl⟩
theorem wit_DecodeOfEncode :
    WellFormed (.setpix 255 255 255#8 0#8 255#8) = true ∧ WellFormed (.setpixp 255 0 0xFFFFFF#24) = true ∧
    WellFormed (.ldg 65535) = true ∧ WellFormed (.stg 65535 255#8) = true ∧ WellFormed (.setbri 0xFFFFFFFF#32) = true := by decide
theorem wit_EncodeOfDecode : decode 0x02FFFFFFFFFF0000#64 = .ok (.setpix 255 255 255#8 255#8 255#8) := by decide
theorem wit_IllegalWordsRaiseCmdErr :
    IllegalWord 0x0#64 ∧ IllegalWord 0x0B00000000000000#64 ∧ IllegalWord 0xFF00000000000000#64 ∧
    IllegalWord 0x0A80000000000000#64 ∧ IllegalWord 0x0300000000008000#64 ∧ IllegalWord 0x0500008000000000#64 ∧
    IllegalWord 0x0600000080000000#64 ∧ IllegalWord 0x0900000100000000#64 :=
  ⟨.inl (by decide), .inr (.inl (by decide)), .inr (.inl (by decide)), .inr (.inr (.inl ⟨by decide, by decide⟩)),
    .inr (.inr (.inr (.inl ⟨by decide, by decide⟩))), .inr (.inr (.inr (.inr (.inl ⟨by decide, by decide⟩)))),
    .inr (.inr (.inr (.inr (.inr (.inl ⟨by decide, by decide⟩))))),
    .inr (.inr (.inr (.inr (.inr (.inr ⟨by decide, by decide⟩)))))⟩
/-- IllegalWordsRaiseCmdErr's second clause: an illegal word about to be issued. -/
theorem wit_illegal_issued :
    let s := armedIssuing 0x0B00000000000000#64
    s.sched = [.host] ∧ s.hostPos = .none ∧ s.prog = [0x0B00000000000000#64] := ⟨rfl, rfl, rfl⟩
theorem wit_OpcodeRowsAreTheDecoder : ∃ row ∈ opcodeRows, row.covers 0x09000000FFFFFFFF#64 = true := by decide
/-- SetpixWritesThePixel, SetpixpWritesThePixel, ThreeStgsEqualOneSetpix: the last pixel of REF. -/
theorem wit_SetpixWritesThePixel :
    State.reset.cfg.Ok ∧ MemoryWf State.reset ∧ 7 < State.reset.cfg.cols ∧ 7 < State.reset.cfg.rows :=
  ⟨wit_ref, wit_reset_wf, by decide, by decide⟩
theorem wit_SetpixpWritesThePixel :
    State.reset.cfg.Ok ∧ MemoryWf State.reset ∧ 0 < State.reset.cfg.cols ∧ 7 < State.reset.cfg.rows :=
  ⟨wit_ref, wit_reset_wf, by decide, by decide⟩
theorem wit_RangeErrIgnoresTheAccess :
    (State.reset.cfg.cols ≤ 8 ∨ State.reset.cfg.rows ≤ 0) ∧ (State.reset.cfg.cols ≤ 7 ∨ State.reset.cfg.rows ≤ 8) ∧
    State.reset.cfg.gridBytes ≤ 192 := by decide
theorem wit_LdgAnswersTheGridByte : State.reset.cfg.Ok ∧ 191 < State.reset.cfg.gridBytes := ⟨wit_ref, by decide⟩
theorem wit_StgWritesOneGridByte : State.reset.cfg.Ok ∧ MemoryWf State.reset ∧ 191 < State.reset.cfg.gridBytes :=
  ⟨wit_ref, wit_reset_wf, by decide⟩
theorem wit_ThreeStgsEqualOneSetpix : onePixel.Ok ∧ 0 < onePixel.cols ∧ 0 < onePixel.rows := ⟨wit_onePixel, by decide, by decide⟩
theorem wit_GetpixAnswersTheHandle :
    opField 0x0480000000000000#64 = 0x04#8 ∧ (0x0480000000000000#64 : Command) ≠ 0x0400000000000000#64 := by decide
/-- BufwaitAnswersSwapPending's second clause: SHOW's last step. -/
theorem wit_BufwaitAnswersSwapPending :
    let s : State := { State.reset with cmd := 0x0700000000000000#64, hostPos := .show2 }
    ∃ t, turn .host s = .next t ∧ s.swapPending = false ∧ t.swapPending = true := ⟨_, rfl, rfl, rfl⟩
theorem wit_GetbriAnswersTheClampedValue :
    (∃ t, exec (.setbri 0x40000000#32) State.reset = .next t ∧ t.bright ≠ 0x40000000#32) ∧
    (∃ t, exec .getbri State.reset = .next t) ∧
    (∃ t, turn .host (issuing 0x090000003F000000) = .next t ∧ t.bright ≠ (issuing 0x090000003F000000).bright) :=
  ⟨⟨_, rfl, by decide⟩, ⟨_, rfl⟩, ⟨_, rfl, by decide⟩⟩
/-- REF with two bytes a pixel: not CFG_OK, GRID_BYTES below CAP_GRID. -/
def twoBytes : Config := { Config.ref with bpp := 2 }

/-- BadConfigurationStops: the byte at CAP_GRID, the pixel that holds it, a pixel wholly beyond a smaller capacity, and a pixel whose
last byte is the one at GRID_BYTES, inside CAP_GRID. -/
theorem wit_BadConfigurationStops :
    ¬ shortGrid.Ok ∧ 191 < shortGrid.gridBytes ∧ shortGrid.capGrid ≤ 191 ∧
    7 < shortGrid.cols ∧ 7 < shortGrid.rows ∧ min shortGrid.gridBytes shortGrid.capGrid ≤ (7 * shortGrid.cols + 7) * 3 + 2 ∧
    ¬ Config.Ok { Config.ref with capGrid := 0 } ∧ min Config.ref.gridBytes 0 ≤ (0 * Config.ref.cols + 0) * 3 + 2 ∧
    ¬ twoBytes.Ok ∧ min twoBytes.gridBytes twoBytes.capGrid ≤ (5 * twoBytes.cols + 2) * 3 + 2 ∧
    (5 * twoBytes.cols + 2) * 3 + 2 < twoBytes.capGrid :=
  ⟨wit_shortGrid, by decide, by decide, by decide, by decide, by decide, by decide, by decide, by decide, by decide, by decide⟩
/-- R131 on that configuration (log 5): the first two bytes fit, the third is at GRID_BYTES. -/
theorem test_setpix_two_bytes :
    exec (.setpix 2 5 1#8 2#8 3#8) (State.resetOf twoBytes) = .fault (.outsideRegion .grid 128) := rfl
/-- EncodeAssignsEveryByte, EncodeSinglePlane, EncodeOneRedPixel: the first and the last pair and byte of REF. -/
theorem wit_EncodeAssignsEveryByte :
    Config.ref.Ok ∧ 7 < Config.ref.rows ∧ 7 < Config.ref.bitDepth ∧ 7 < Config.ref.cols ∧ 1023 < Config.ref.bsBytes := by decide
theorem wit_EncodeSinglePlane : alt.Ok ∧ 3 < alt.bitDepth ∧ 1 < alt.rows ∧ 0 < alt.bitDepth ∧ 3 < alt.cols := by decide
theorem wit_EncodeOneRedPixel :
    alt.Ok ∧ 0 < alt.rows ∧ 3 < alt.bitDepth ∧ 3 < alt.cols ∧ alt.colAt 3 = 0 ∧ 1 < alt.rows ∧ 0 < alt.cols := by decide
theorem wit_EncodeBlankAndClock : alt.Ok ∧ onePixel.Ok := ⟨test_alt_ok, wit_onePixel⟩
/-- EncodeIsLocal: both clauses, on the last pixel and channel. -/
theorem wit_EncodeIsLocal :
    Config.ref.Ok ∧ 7 < Config.ref.cols ∧ 7 < Config.ref.rows ∧
    (∀ off, ¬ InPixel Config.ref 7 7 off → (if off = 191 then 1#8 else 0#8) = 0#8) ∧
    (¬ (0 = 7 ∧ Config.ref.colAt 0 = 7)) ∧ 2 < 3 ∧ 7 < Config.ref.bitDepth ∧
    (∀ off, (if off = (7 * Config.ref.cols + 7) * 3 + 2 then 0#8 ^^^ (1#8 <<< 7) else 0#8) =
      if off = (7 * Config.ref.cols + 7) * 3 + 2 then 0#8 ^^^ (1#8 <<< 7) else 0#8) :=
  ⟨wit_ref, by decide, by decide, fun off h => if_neg fun e => h ⟨2, by decide, e⟩, by decide, by decide, by decide, fun _ => rfl⟩
/-- ShowRunsInThreeSteps: each of the three positions. -/
theorem wit_ShowRunsInThreeSteps : ∀ p ∈ [HostPos.none, .show1, .show2],
    ∃ s : State, s.cfg.Ok ∧ MemoryWf s ∧ s.hostPos = p :=
  fun p _ => ⟨{ State.reset with hostPos := p }, wit_ref, wit_reset_wf, rfl⟩
/-- ShowIsSafeUnderInterleaving: a SHOW with an advance over the wrap, a refresh and a strike between its steps. -/
theorem wit_ShowIsSafeUnderInterleaving :
    let s : State := { armedAt 1 .w 2 false true with prog := [0x0700000000000000#64], sched := [] }
    Inv s ∧ AboutToIssue s .showCmd ∧ ∀ a ∈ [Agent.chain, .refresh] ++ [Agent.chain, .env], a ≠ .host :=
  ⟨inv_hosting _ _ _ wit_inv_w_last, ⟨rfl, _, _, rfl, by decide⟩, by decide⟩
theorem wit_ActiveBufferIsNeverWritten : Inv armed ∧ (∃ t, exec .showCmd armed = .next t) ∧ Instr.showCmd ≠ .beginCmd :=
  ⟨wit_inv_a, ⟨_, rfl⟩, by decide⟩
theorem wit_AddressTableLayout :
    alt.Ok ∧ 1 < alt.rows ∧ 3 < alt.bitDepth ∧ 2 < alt.addrRepeat ∧ 23 < alt.addrBytes := by decide
theorem wit_PeriodsFillTheRowSlice : onePixel.Ok ∧ Config.ref.Ok := ⟨wit_onePixel, wit_ref⟩
theorem wit_C0IsTheExactFloor : alt.Ok ∧ isBrightness 0x00000001#32 = true ∧ isBrightness 0x3F800000#32 = true := by decide
/-- CompareValueLaws: the ends of the range, and a brightness below 1 / T_UNIT. -/
theorem wit_CompareValueLaws :
    Config.ref.Ok ∧ isBrightness 0#32 = true ∧ isBrightness 0x3F800000#32 = true ∧
    f32Value 0#32 ≤ f32Value 0x3F800000#32 ∧ f32Value 0#32 < 1 / (Config.ref.tUnit : ℚ) := by
  have h0 : f32Value 0#32 = 0 := by simp [f32Value, f32Exp, f32Frac]
  have h1 : f32Value 0x3F800000#32 = 1 := by
    rw [f32Value, if_neg (by decide), show (f32Exp 0x3F800000#32).toNat = 127 from rfl, show (f32Frac 0x3F800000#32).toNat = 0 from rfl]
    norm_num
  exact ⟨wit_ref, by decide, by decide, by rw [h0, h1]; norm_num, by rw [h0]; norm_num [Config.ref]⟩
theorem wit_ClampLandsInRange :
    isBrightness 0x3F800000#32 = true ∧ Config.ref.Ok ∧ (0x007FFFFF#32 : Word32).toNat < 2 ^ 23 ∧
    (0x00000000#32 : Word32).toNat < 0x7F800000 ∧ (0x7F7FFFFF#32 : Word32).toNat < 0x7F800000 := by decide
/-- SetbriRunsEntryByEntry: the clamp step, and both writes of the first and of the last entry; and the clamp step whatever C0 holds. -/
theorem wit_SetbriRunsEntryByEntry :
    (∀ p ∈ [HostPos.none, .bri (2 * 0), .bri (2 * 0 + 1), .bri (2 * 63), .bri (2 * 63 + 1)],
      ∃ s : State, s.cfg.Ok ∧ MemoryWf s ∧ s.c0.toNat ≤ s.cfg.tUnit ∧ 63 < s.cfg.ttEntries ∧ s.hostPos = p) ∧
    (∃ s : State, s.cfg.Ok ∧ MemoryWf s ∧ s.hostPos = .none ∧ s.cfg.tUnit < s.c0.toNat) :=
  ⟨fun p _ => ⟨{ State.reset with hostPos := p, c0 := 256#32 }, wit_ref, wit_reset_wf, Nat.le_refl 256, Nat.lt_succ_self 63, rfl⟩,
    { State.reset with c0 := 257#32 }, wit_ref, wit_reset_wf, rfl, Nat.lt_succ_self 256⟩
theorem wit_SetbriRebuildsUnderInterleaving :
    let s : State := { armedAt 0 .d 0 false false with prog := [0x090000003F000000#64], sched := [] }
    Inv s ∧ AboutToIssue s (.setbri 0x3F000000#32) ∧
      [Agent.host, .chain, .host, .host, .chain, .host, .env, .host].count .host = 1 + 2 * s.cfg.ttEntries :=
  ⟨inv_hosting _ _ _ wit_inv_d, ⟨rfl, _, _, rfl, by decide⟩, by decide⟩
/-- RebuildIsNewBelowItsPosition: a SETBRI's first step. -/
theorem wit_RebuildIsNewBelowItsPosition :
    let s := armedIssuing 0x090000003F000000#64
    Inv s ∧ RebuildOk s ∧ ∃ t, turn .host s = .next t ∧ t.hostPos = .bri 0 :=
  ⟨inv_hosting _ _ _ wit_inv_a, ⟨trivial, (fun i h => by cases h), fun _ _ => wit_armed_compares⟩, ⟨_, rfl, rfl⟩⟩
theorem wit_BeginBuildsBlanksAndArms :
    State.reset.cfg.Ok ∧ MemoryWf State.reset ∧ isBrightness State.reset.bright = true ∧
    127 < State.reset.cfg.addrBytes ∧ 63 < State.reset.cfg.ttEntries ∧ 1023 < State.reset.cfg.bsBytes :=
  ⟨wit_ref, wit_reset_wf, by decide, by decide, by decide, by decide⟩
theorem wit_BeginRefusesABadConfiguration : ¬ (State.resetOf shortGrid).cfg.Ok := wit_shortGrid
/-- XaDrivesTheRowCode: an address byte with more to come, and the last. -/
theorem wit_XaDrivesTheRowCode : ∀ s ∈ [armedAt 0 .a 0 false false, armedAt 1 .a 1 false true],
    Inv s ∧ s.runState = .running ∧ s.phase = .a ∧ hold s = false := by
  simp only [List.forall_mem_cons]
  exact ⟨⟨wit_inv_a, rfl, rfl, rfl⟩, ⟨wit_inv_a_last, rfl, rfl, rfl⟩, by simp⟩
theorem wit_XpDrivesThePlanePeriod : ∃ s, Inv s ∧ s.runState = .running ∧ s.phase = .p := ⟨_, wit_inv_p, rfl, rfl⟩
theorem wit_XcDrivesTheCompareEntry : ∃ s, Inv s ∧ s.runState = .running ∧ s.phase = .c := ⟨_, wit_inv_c, rfl, rfl⟩
/-- XdDrivesTheActiveBuffer: a data byte with more to come, and the last of the last sub-frame. -/
theorem wit_XdDrivesTheActiveBuffer : ∀ s ∈ [armedAt 0 .d 0 false false, armedAt 1 .d 1 false false],
    Inv s ∧ s.runState = .running ∧ s.phase = .d := by
  simp only [List.forall_mem_cons]
  exact ⟨⟨wit_inv_d, rfl, rfl⟩, ⟨wit_inv_d_last, rfl, rfl⟩, by simp⟩
/-- AdvAdvancesAndWraps: sub-frame 0 of 2 (plane 0 of 2), and the last of both. -/
theorem wit_AdvAdvancesAndWraps : ∀ s ∈ [armedAt 0 .w 2 false false, armedAt 1 .w 2 false true],
    Inv s ∧ s.runState = .running ∧ s.phase = .w := by
  simp only [List.forall_mem_cons]
  exact ⟨⟨wit_inv_w, rfl, rfl⟩, ⟨wit_inv_w_last, rfl, rfl⟩, by simp⟩
theorem wit_HoldUntilRefreshOrBegin : ∃ s, Inv s ∧ s.runState = .running ∧ s.irqPending = true := ⟨_, wit_inv_irq, rfl, rfl⟩
/-- SubFrameTrace, at the last sub-frame; ScanCycleTrace. -/
theorem wit_SubFrameTrace : ∃ s, Inv s ∧ ComparesBuilt s ∧ s.runState = .running ∧ s.irqPending = false ∧ s.phase = .a ∧
    s.idx = 0 ∧ s.sf = 1 :=
  ⟨armedAt 1 .a 0 false false, inv_armedAt _ _ _ _ _ ⟨by decide, by show 0 < 2; decide⟩ (fun h => by cases h),
    wit_armed_compares, rfl, rfl, rfl, rfl, rfl⟩
theorem wit_ScanCycleTrace : ∃ s, Inv s ∧ ComparesBuilt s ∧ s.runState = .running ∧ s.irqPending = false ∧ s.sf = 0 ∧
    s.phase = .a ∧ s.idx = 0 := ⟨_, wit_inv_a, wit_armed_compares, rfl, rfl, rfl, rfl, rfl⟩
theorem wit_ChainFollowsItsDescriptors : ∃ s, Inv s ∧ s.runState = .running ∧ s.phase = .d := ⟨_, wit_inv_d_last, rfl, rfl⟩
/-- RefreshSwapsIfPending: a swap pending and none, and the interrupt not pending. -/
theorem wit_RefreshSwapsIfPending :
    (∀ b, ∃ s : State, (s.runState = .running ∧ s.irqPending = true) ∧ s.swapPending = b) ∧
    ¬ (armed.runState = .running ∧ armed.irqPending = true) :=
  ⟨fun b => ⟨armedAt 0 .a 0 true b, ⟨rfl, rfl⟩, rfl⟩, by rintro ⟨-, h⟩; cases h⟩
theorem wit_UnderrunStrikes :
    armed.runState = .running ∧ State.reset.runState ≠ .running ∧ State.reset.runState = .idle ∧
    ({ armed with runState := .cfgFault } : State).runState = .cfgFault ∧
    ({ armed with runState := .underrunFault } : State).runState = .underrunFault ∧ Agent.refresh ≠ .host :=
  ⟨rfl, by decide, rfl, rfl, rfl, by decide⟩
/-- RunStateChangesAsTabled: a strike, a BEGIN, a BEGIN refused. -/
theorem wit_RunStateChangesAsTabled :
    (∃ t, turn .env armed = .next t ∧ t.runState ≠ armed.runState) ∧
    (∃ t, turn .host (issuing 0x0100000000000000) = .next t ∧ t.runState ≠ .idle) ∧
    (∃ t, turn .host { issuing 0x0100000000000000 with cfg := shortGrid } = .next t ∧ t.runState ≠ .idle) := by
  have h1 : execBegin (issue 0x0100000000000000#64 [] (issuing 0x0100000000000000)) = .next (beginEffect _) := if_pos wit_ref
  have h2 : execBegin (issue 0x0100000000000000#64 [] { issuing 0x0100000000000000 with cfg := shortGrid }) =
    .next (beginRefusal _) := if_neg wit_shortGrid
  exact ⟨⟨_, rfl, by simp [loseOutputs, armed, beginEffect, armChain, respond, emit]⟩, ⟨_, h1, by intro h; cases h⟩,
    ⟨_, h2, by intro h; cases h⟩⟩
/-- ScanPositionAndActiveHaveFewWriters: an advance, a step that counts IDX, and a swap. -/
theorem wit_ScanPositionAndActiveHaveFewWriters :
    (∃ t, turn .chain (armedAt 0 .w 2 false false) = .next t ∧ t.sf ≠ 0) ∧
    (∃ t, turn .chain (armedAt 0 .d 0 false false) = .next t ∧ t.idx ≠ 0) ∧
    (∃ t, turn .refresh (armedAt 0 .a 0 true true) = .next t ∧ t.active ≠ (armedAt 0 .a 0 true true).active) :=
  ⟨⟨_, rfl, by decide +kernel⟩, ⟨_, rfl, by decide +kernel⟩, ⟨_, rfl, by decide +kernel⟩⟩
theorem wit_RegionsHaveTheirWriters :
    (∃ t, turn .chain armed = .next t ∧ Agent.chain ≠ .host) ∧ (∃ t, exec (.stg 191 0xAA#8) State.reset = .next t) :=
  ⟨⟨_, rfl, by decide⟩, ⟨_, rfl⟩⟩
theorem wit_EventsAreAppendedOneAtATime : ∃ t, turn .chain armed = .next t ∧ t.trace ≠ armed.trace :=
  ⟨_, rfl, by decide +kernel⟩
theorem wit_ResetIsAsTheTableSays : Region.compareTbl ≠ .grid := by decide
theorem wit_ResetMeetsTheInvariant : alt.Ok := test_alt_ok
theorem wit_StepKeepsTheInvariant :
    let s : State := { armed with prog := [], sched := [.chain] }
    Inv s ∧ ∃ t, step s = .next t ∧ t.idx = 1 := ⟨inv_hosting _ _ _ wit_inv_a, ⟨_, rfl, by decide +kernel⟩⟩
theorem wit_StepNeverStops : Inv (armedAt 0 .a 0 true true) := wit_inv_irq

end Sys2Proof.Tests
end

section
/-! PROOFS. R94's illegal words: the decoder refuses exactly those, and running one raises CMD_ERR and does nothing else. -/

namespace Sys2Proof.Machine

/-! ### The must-be-zero test and R94's words, format by format -/

/-- The must-be-zero test refuses a word exactly when one of the tested bits is set. -/
theorem ifClear_error_iff {w : Command} {lo len : Nat} {i : Instr} :
    (∃ e, ifClear w lo len i = .error e) ↔ w.extractLsb' lo len ≠ 0#len := by
  unfold ifClear
  split
  · next h => simp [h]
  · next h => simp [h]

/-- Format N's must-be-zero bits are all 56 below OP. -/
theorem illegalWord_iff_of_formatN {w : Command} (h : (opField w).toNat ∈ [0x01, 0x04, 0x07, 0x08, 0x0A]) :
    IllegalWord w ↔ w.extractLsb' 0 56 ≠ 0#56 := by
  simp only [List.mem_cons, List.not_mem_nil, or_false] at h
  rcases h with h | h | h | h | h <;> simp [IllegalWord, h]

/-- The must-be-zero bits of formats C and P are the low 16. -/
theorem illegalWord_iff_of_formatC_or_formatP {w : Command} (h : (opField w).toNat ∈ [0x02, 0x03]) :
    IllegalWord w ↔ w.extractLsb' 0 16 ≠ 0#16 := by
  simp only [List.mem_cons, List.not_mem_nil, or_false] at h
  rcases h with h | h <;> simp [IllegalWord, h]

/-- LDG has no val8, so that field of format G must be zero too (R92). -/
theorem illegalWord_iff_of_ldg {w : Command} (h : (opField w).toNat = 0x05) :
    IllegalWord w ↔ w.extractLsb' 0 40 ≠ 0#40 := by simp [IllegalWord, h]

/-- STG's must-be-zero bits are the low 32, below val8. -/
theorem illegalWord_iff_of_stg {w : Command} (h : (opField w).toNat = 0x06) :
    IllegalWord w ↔ w.extractLsb' 0 32 ≠ 0#32 := by simp [IllegalWord, h]

/-- Format F's must-be-zero bits are the 24 between OP and f32. -/
theorem illegalWord_iff_of_formatF {w : Command} (h : (opField w).toNat = 0x09) :
    IllegalWord w ↔ w.extractLsb' 32 24 ≠ 0#24 := by simp [IllegalWord, h]

/-- The decoder refuses exactly R94's words: for a legal OP its format's must-be-zero test decides, and every OP the decoder
has no branch for is 0x00 or at least 0x0B. -/
theorem decode_error_iff_illegalWord (w : Command) : (∃ e, decode w = .error e) ↔ IllegalWord w := by
  have formatN (i : Instr) (h : (opField w).toNat ∈ [0x01, 0x04, 0x07, 0x08, 0x0A]) :
      (∃ e, ifClear w 0 56 i = .error e) ↔ IllegalWord w :=
    ifClear_error_iff.trans (illegalWord_iff_of_formatN h).symm
  have formatCP (i : Instr) (h : (opField w).toNat ∈ [0x02, 0x03]) :
      (∃ e, ifClear w 0 16 i = .error e) ↔ IllegalWord w :=
    ifClear_error_iff.trans (illegalWord_iff_of_formatC_or_formatP h).symm
  unfold decode
  split
  next h => exact formatN _ (by simp [h])
  next h => exact formatCP _ (by simp [h])
  next h => exact formatCP _ (by simp [h])
  next h => exact formatN _ (by simp [h])
  next h => exact ifClear_error_iff.trans (illegalWord_iff_of_ldg h).symm
  next h => exact ifClear_error_iff.trans (illegalWord_iff_of_stg h).symm
  next h => exact formatN _ (by simp [h])
  next h => exact formatN _ (by simp [h])
  next h => exact ifClear_error_iff.trans (illegalWord_iff_of_formatF h).symm
  next h => exact formatN _ (by simp [h])
  next =>
    have reserved : (opField w).toNat = 0x00 ∨ 0x0B ≤ (opField w).toNat := by
      simp only [imp_false] at *
      omega
    exact iff_of_true ⟨_, rfl⟩ (reserved.imp_right .inl)

/-! ### Running a command, and the turn that issues one -/

/-- Raising a cause is its response and nothing else (R241). -/
theorem responded_raise (c : Cause) (s : State) : Responded s (raise c s) c.code 0#32 := rfl

/-- Running an illegal word that stands in CMD raises CMD_ERR (R94, R130). -/
theorem runCommand_of_illegalWord {s : State} (h : IllegalWord s.cmd) : runCommand s = .next (raise .cmdErr s) := by
  obtain ⟨e, he⟩ := (decode_error_iff_illegalWord s.cmd).2 h
  simp only [runCommand, he]

/-- A step at a HOST turn with no command in flight issues the next word and runs it (R13, R130). -/
theorem step_of_issue {s : State} {rest : List Agent} {w : Command} {ws : List Command}
    (hsched : s.sched = .host :: rest) (hpos : s.hostPos = .none) (hprog : s.prog = w :: ws) :
    step s = runCommand (issue w ws { s with sched := rest }) := by
  simp only [step, takeTurn, hsched, turn, hostTurn, hpos, hprog]

/-- Settles O5: the decoder's branches against R94's words, then CMD_ERR's response through the turn that issues the word. -/
theorem illegalWordsRaiseCmdErr : Obligations.IllegalWordsRaiseCmdErr := by
  refine ⟨decode_error_iff_illegalWord, ?issued, ?inCmd⟩
  case issued =>
    intro s rest w ws hsched hpos hprog hw
    have hstep := step_of_issue hsched hpos hprog
    rw [runCommand_of_illegalWord (by rwa [issue_cmd])] at hstep
    exact ⟨_, hstep, responded_raise .cmdErr _⟩
  case inCmd =>
    intro s hw
    exact ⟨_, runCommand_of_illegalWord hw, responded_raise .cmdErr s⟩

end Sys2Proof.Machine
end

section
/-! PROOFS. R150's layout of the bitstream buffer: a byte's row, plane, position and half are the digits of its offset, and the
byte there is the one R97 and R98 give for them. -/

namespace Sys2Proof.Machine

/-! ### The offset as a number whose digits are row, plane, position and half of the pair (R63, R150) -/

/-- Row, plane, position and half of the pair at an offset of the buffer, as `encodeAt` reads them off it. -/
def byteCoords (c : Config) (off : Nat) : Nat × Nat × Nat × Nat :=
  (off / 2 / c.cols / c.bitDepth, off / 2 / c.cols % c.bitDepth, off / 2 % c.cols, off % 2)

/-- The byte at an offset is the data or the clock byte of the offset's coordinates. -/
theorem encodeAt_of_byteCoords {c : Config} {off r k p h : Nat} (grid : Nat → Byte) (hx : byteCoords c off = (r, k, p, h)) :
    encodeAt c grid off = if h = 0 then dataByte c grid r k p else clockByte c grid r k p := by
  simp only [byteCoords, Prod.mk.injEq] at hx
  obtain ⟨rfl, rfl, rfl, rfl⟩ := hx
  rfl

/-- A digit below the base is the remainder, and what stands before it the quotient. -/
theorem eq_mul_add_iff_div_mod {n q d m : Nat} (hd : d < m) : n = q * m + d ↔ n / m = q ∧ n % m = d := by
  rw [Nat.div_mod_unique (Nat.zero_lt_of_lt hd), and_iff_left hd, eq_comm, Nat.add_comm, Nat.mul_comm]

/-- With plane, position and half in range, an offset is the one R150 gives for its coordinates and for no others. -/
theorem eq_offset_iff_byteCoords {c : Config} {off r k p h : Nat} (hk : k < c.bitDepth) (hp : p < c.cols) (hh : h < 2) :
    off = ((r * c.bitDepth + k) * c.cols + p) * 2 + h ↔ byteCoords c off = (r, k, p, h) := by
  rw [eq_mul_add_iff_div_mod hh, eq_mul_add_iff_div_mod hp, eq_mul_add_iff_div_mod hk]
  simp only [byteCoords, Prod.mk.injEq, and_assoc]

/-- A row has a column (R7). -/
theorem cols_pos {c : Config} (hc : c.Ok) : 0 < c.cols := by
  obtain ⟨⟨-, ⟨hcols, -⟩, -⟩, -⟩ := hc
  exact hcols

/-- The offsets below BS_BYTES have their row below ROWS: the buffer ends with the last row's last pair (PAGES = 1). -/
theorem row_of_offset_lt {c : Config} (hc : c.Ok) {off : Nat} (hoff : off < c.bsBytes) :
    off / 2 / c.cols / c.bitDepth < c.rows := by
  have hsize : c.bsBytes = 2 * (c.cols * c.bitDepth) * c.rows := by rw [bsBytes_eq hc, Config.nsf, Config.slice]; ring
  rw [Nat.div_div_eq_div_mul, Nat.div_div_eq_div_mul]
  exact Nat.div_lt_of_lt_mul (hoff.trans_eq hsize)

/-- Every offset of the buffer is R150's for exactly one row, plane, position and half of the pair. -/
theorem existsUnique_offset {c : Config} (hc : c.Ok) {off : Nat} (hoff : off < c.bsBytes) :
    ∃! x : Nat × Nat × Nat × Nat, x.1 < c.rows ∧ x.2.1 < c.bitDepth ∧ x.2.2.1 < c.cols ∧ x.2.2.2 < 2 ∧
      off = ((x.1 * c.bitDepth + x.2.1) * c.cols + x.2.2.1) * 2 + x.2.2.2 := by
  have hk : off / 2 / c.cols % c.bitDepth < c.bitDepth := Nat.mod_lt _ (bitDepth_pos hc)
  have hp : off / 2 % c.cols < c.cols := Nat.mod_lt _ (cols_pos hc)
  have hh : off % 2 < 2 := Nat.mod_lt _ two_pos
  refine ⟨byteCoords c off, ⟨row_of_offset_lt hc hoff, hk, hp, hh, (eq_offset_iff_byteCoords hk hp hh).2 rfl⟩, ?unique⟩
  case unique =>
    rintro ⟨r, k, p, h⟩ ⟨-, hk', hp', hh', hx⟩
    exact ((eq_offset_iff_byteCoords hk' hp' hh').1 hx).symm

/-! ### The bytes of a pair (R97, R98) -/

/-- R97's bit(v, k) << pos, with bit k of v said arithmetically. -/
theorem lineBit_eq_shift (v : Byte) (k pos : Nat) : lineBit v k pos = BitVec.ofNat 8 (v.toNat / 2 ^ k % 2) <<< pos := by
  have hbit : v.getLsbD k = decide (v.toNat / 2 ^ k % 2 = 1) := Nat.testBit_eq_decide_div_mod_eq
  rcases Nat.mod_two_eq_zero_or_one (v.toNat / 2 ^ k) with h | h <;> simp [lineBit, hbit, h]

/-- The pair at off(r, k, p): its data byte, and behind it its clock byte. -/
theorem encodeAt_pairOff {c : Config} {r k p : Nat} (grid : Nat → Byte) (hk : k < c.bitDepth) (hp : p < c.cols) :
    encodeAt c grid (pairOff c r k p) = dataByte c grid r k p ∧
    encodeAt c grid (pairOff c r k p + 1) = clockByte c grid r k p :=
  ⟨encodeAt_of_byteCoords grid ((eq_offset_iff_byteCoords hk hp two_pos).1 rfl),
    encodeAt_of_byteCoords grid ((eq_offset_iff_byteCoords hk hp one_lt_two).1 rfl)⟩

/-- Settles O17: the pair at off(r, k, p) with its line bits said arithmetically, and the offset's digits for the rest. -/
theorem encodeAssignsEveryByte : Obligations.EncodeAssignsEveryByte := by
  refine fun c grid hc => ⟨fun r k p _ hk hp => ?pair, fun off hoff => existsUnique_offset hc hoff⟩
  case pair =>
    simp only [← lineBit_eq_shift]
    exact encodeAt_pairOff grid hk hp

end Sys2Proof.Machine
end

section
/-! PROOFS. R170's layout of the Address Table: a byte's row, plane and repetition are the digits of its offset, and the byte
there is the row code of its row. -/

namespace Sys2Proof.Machine

/-! ### The offset as a number whose digits are row, plane and repetition (R170) -/

/-- Row, plane and repetition of a byte of the Address Table, read off its offset as `buildAddrAt` reads the row. -/
def addrCoords (c : Config) (off : Nat) : Nat × Nat × Nat :=
  (c.rowOf (off / c.addrRepeat), c.planeOf (off / c.addrRepeat), off % c.addrRepeat)

/-- The byte at an offset is the row code of the offset's row, whatever its plane and repetition. -/
theorem buildAddrAt_of_addrCoords {c : Config} {off r k j : Nat} (hx : addrCoords c off = (r, k, j)) :
    buildAddrAt c off = c.rowCode r :=
  congrArg (fun x : Nat × Nat × Nat => c.rowCode x.1) hx

/-- With plane and repetition in range, an offset is the one R170 gives for its coordinates and for no others. -/
theorem eq_addrOffset_iff_addrCoords {c : Config} {off r k j : Nat} (hk : k < c.bitDepth) (hj : j < c.addrRepeat) :
    off = (r * c.bitDepth + k) * c.addrRepeat + j ↔ addrCoords c off = (r, k, j) := by
  rw [eq_mul_add_iff_div_mod hj, eq_mul_add_iff_div_mod hk]
  simp only [addrCoords, Config.rowOf, Config.planeOf, Prod.mk.injEq, and_assoc]

/-- The offsets below ADDR_BYTES have their row below ROWS: the table ends with the last row's last plane. -/
theorem rowOf_addrOffset_lt {c : Config} {off : Nat} (hoff : off < c.addrBytes) :
    c.rowOf (off / c.addrRepeat) < c.rows := by
  have hsize : c.addrBytes = c.addrRepeat * c.bitDepth * c.rows := by rw [addrBytes_eq, Config.nsf]; ring
  rw [Config.rowOf, Nat.div_div_eq_div_mul]
  exact Nat.div_lt_of_lt_mul (hoff.trans_eq hsize)

/-- Every offset of the table is R170's for exactly one row, plane and repetition. -/
theorem existsUnique_addrOffset {c : Config} (hc : c.Ok) {off : Nat} (hoff : off < c.addrBytes) :
    ∃! x : Nat × Nat × Nat, x.1 < c.rows ∧ x.2.1 < c.bitDepth ∧ x.2.2 < c.addrRepeat ∧
      off = (x.1 * c.bitDepth + x.2.1) * c.addrRepeat + x.2.2 := by
  have hk : c.planeOf (off / c.addrRepeat) < c.bitDepth := planeOf_lt hc _
  have hj : off % c.addrRepeat < c.addrRepeat := Nat.mod_lt _ (addrRepeat_pos hc)
  refine ⟨addrCoords c off, ⟨rowOf_addrOffset_lt hoff, hk, hj, (eq_addrOffset_iff_addrCoords hk hj).2 rfl⟩, ?unique⟩
  case unique =>
    rintro ⟨r, k, j⟩ ⟨-, hk', hj', hx⟩
    exact ((eq_addrOffset_iff_addrCoords hk' hj').1 hx).symm

/-- Settles O25: the row is the first digit of the offset R170 gives, and every offset has exactly one set of digits. The length
is R8's definition of ADDR_BYTES. -/
theorem addressTableLayout : Obligations.AddressTableLayout := by
  refine fun c hc => ⟨?length, fun r k j _ hk hj => ?entry, fun off hoff => existsUnique_addrOffset hc hoff⟩
  case length => rfl
  case entry => exact buildAddrAt_of_addrCoords ((eq_addrOffset_iff_addrCoords hk hj).1 rfl)

end Sys2Proof.Machine
end

section
/-! PROOFS. R180's periods: a geometric sum fills the row slice, and CFG_OK's capacity bound is the fit of the longest. -/

namespace Sys2Proof.Machine

/-- The first n planes' ticks double from a, so they sum to a times n ones in binary. -/
theorem sum_range_mul_two_pow (a n : Nat) : ((List.range n).map (fun k => a * 2 ^ k)).sum = a * (2 ^ n - 1) := by
  induction n with
  | zero => rfl
  | succ n ih =>
    have hpow : 2 ^ (n + 1) - 1 = (2 ^ n - 1) + 2 ^ n := by
      have := Nat.one_le_two_pow (n := n)
      omega
    rw [List.range_succ, List.map_append, List.sum_append, ih, List.map_singleton, List.sum_singleton, hpow, Nat.mul_add]

/-- A period is twice the one of the plane below it (R180). -/
theorem periodOf_succ (c : Config) (k : Nat) : periodOf c (k + 1) = 2 * periodOf c k := by
  rw [periodOf, periodOf, pow_succ', Nat.mul_left_comm]

/-- The longest period fits an entry, which is the last of R9's conditions. -/
theorem longest_periodOf_le {c : Config} (hc : c.Ok) : periodOf c (c.bitDepth - 1) ≤ 2 ^ c.tw - 1 := by
  obtain ⟨-, -, -, -, -, hfit⟩ := hc
  exact hfit

/-- Settles O26: the doubling from plane to plane, the geometric sum of a row, and R9's bound for the longest period. -/
theorem periodsFillTheRowSlice : Obligations.PeriodsFillTheRowSlice := by
  refine ⟨fun c hc => ⟨fun k => ⟨rfl, periodOf_succ c k⟩, ?rowSum, longest_periodOf_le hc⟩, ?ref⟩
  case rowSum => exact sum_range_mul_two_pow c.tUnit c.bitDepth
  case ref => decide

end Sys2Proof.Machine
end

section
/-! PROOFS. R181's numbers as whole multiples of 2^-149, binary32's smallest step: the value of a pattern without a sign, the
floor of its product with T_UNIT, and the order of the patterns. -/

namespace Sys2Proof.Machine

/-! ### The fields of a pattern as the digits of its number (R93) -/

theorem f32Exp_toNat (f : Word32) : (f32Exp f).toNat = f.toNat / 2 ^ 23 % 256 := by
  rw [f32Exp, BitVec.extractLsb'_toNat, Nat.shiftRight_eq_div_pow]

theorem f32Frac_toNat (f : Word32) : (f32Frac f).toNat = f.toNat % 2 ^ 23 := by
  rw [f32Frac, BitVec.extractLsb'_toNat, Nat.shiftRight_zero]

theorem f32Magnitude_toNat (f : Word32) : (f32Magnitude f).toNat = f.toNat % 2 ^ 31 := by
  rw [f32Magnitude, BitVec.extractLsb'_toNat, Nat.shiftRight_zero]

theorem f32Sign_iff (f : Word32) : f32Sign f = true ↔ f.toNat / 2 ^ 31 = 1 := by
  have hbit : f32Sign f = decide (f.toNat / 2 ^ 31 % 2 = 1) := Nat.testBit_eq_decide_div_mod_eq
  have hlt : f.toNat < 2 ^ 32 := f.isLt
  rw [hbit, decide_eq_true_iff]
  omega

/-- With the sign bit clear the exponent field is all that stands above the fraction field. -/
theorem f32Exp_toNat_of_lt {f : Word32} (hf : f.toNat < 2 ^ 31) : (f32Exp f).toNat = f.toNat / 2 ^ 23 := by
  rw [f32Exp_toNat]
  omega

/-- R29's range, said of the pattern's number. -/
theorem isBrightness_iff (b : Word32) : isBrightness b = true ↔ b.toNat ≤ 0x3F800000 := decide_eq_true_iff

/-! ### A pattern's value in steps of 2^-149 (R181) -/

/-- How many times 2^-149 the number with pattern n is, for n read as exponent and fraction field. -/
def f32Steps (n : Nat) : Nat :=
  if n / 2 ^ 23 = 0 then n % 2 ^ 23 else (2 ^ 23 + n % 2 ^ 23) * 2 ^ (n / 2 ^ 23 - 1)

/-- A subnormal's pattern counts its steps. -/
theorem f32Steps_of_lt {n : Nat} (hn : n < 2 ^ 23) : f32Steps n = n := by
  rw [f32Steps, if_pos (Nat.div_eq_of_lt hn), Nat.mod_eq_of_lt hn]

/-- 1.0 is 2^149 steps. -/
theorem f32Steps_one : f32Steps 0x3F800000 = 2 ^ 149 := by norm_num [f32Steps]

/-- The next pattern is a larger number: it has the next fraction, or is the first of the next exponent. -/
theorem f32Steps_lt_succ (n : Nat) : f32Steps n < f32Steps (n + 1) := by
  rcases Nat.lt_or_ge (n % 2 ^ 23 + 1) (2 ^ 23) with hsame | hnext
  · have hexp : (n + 1) / 2 ^ 23 = n / 2 ^ 23 := by omega
    have hfrac : (n + 1) % 2 ^ 23 = n % 2 ^ 23 + 1 := by omega
    rw [f32Steps, f32Steps, hexp, hfrac]
    split
    · exact Nat.lt_succ_self _
    · exact Nat.mul_lt_mul_of_pos_right (by omega) (by positivity)
  · have hexp : (n + 1) / 2 ^ 23 = n / 2 ^ 23 + 1 := by omega
    have hlast : n % 2 ^ 23 = 2 ^ 23 - 1 := by omega
    have hfirst : (n + 1) % 2 ^ 23 = 0 := by omega
    rw [f32Steps, f32Steps, hexp, hlast, hfirst, if_neg (Nat.succ_ne_zero _), Nat.add_sub_cancel]
    split
    next h => rw [h]; norm_num
    next h =>
      obtain ⟨e, he⟩ := Nat.exists_eq_succ_of_ne_zero h
      have hpos : 0 < 2 ^ e := by positivity
      rw [he, Nat.succ_sub_one, pow_succ]
      omega

/-- Patterns order as the numbers they stand for do. -/
theorem f32Steps_strictMono : StrictMono f32Steps := strictMono_nat_of_lt_succ f32Steps_lt_succ

/-- The value of a pattern without a sign is its number of steps of 2^-149. -/
theorem f32Value_eq_steps {b : Word32} (hb : b.toNat < 2 ^ 31) : f32Value b = (f32Steps b.toNat : ℚ) / 2 ^ 149 := by
  rw [f32Value, f32Steps, f32Exp_toNat_of_lt hb, f32Frac_toNat]
  split
  next => rw [zpow_neg, div_eq_mul_inv]; rfl
  next h =>
    obtain ⟨e, he⟩ := Nat.exists_eq_succ_of_ne_zero h
    have hexp : ((e.succ : ℕ) : ℤ) - 150 = e - (149 : ℕ) := by push_cast; ring
    rw [he, hexp, Nat.succ_sub_one, zpow_sub₀ two_ne_zero, zpow_natCast, zpow_natCast]
    push_cast
    ring

/-- Over the patterns without a sign the values order as the patterns do (R185). -/
theorem f32Value_le_iff {f g : Word32} (hf : f.toNat < 2 ^ 31) (hg : g.toNat < 2 ^ 31) :
    f32Value f ≤ f32Value g ↔ f.toNat ≤ g.toNat := by
  rw [f32Value_eq_steps hf, f32Value_eq_steps hg, div_le_div_iff_of_pos_right (by positivity), Nat.cast_le,
    f32Steps_strictMono.le_iff_le]

/-! ### C0 (R181) -/

/-- Both branches of C0 divide the steps' product with T_UNIT by 2^149: the one of the normal numbers has 2^(e-1) cancelled. -/
theorem c0Of_eq_steps {c : Config} {b : Word32} (hb : isBrightness b = true) :
    c0Of c b = f32Steps b.toNat * c.tUnit / 2 ^ 149 := by
  have hle : b.toNat ≤ 0x3F800000 := (isBrightness_iff b).1 hb
  have hexp : (f32Exp b).toNat = b.toNat / 2 ^ 23 := f32Exp_toNat_of_lt (by omega)
  simp only [c0Of, hb, if_true, hexp, f32Frac_toNat, f32Steps]
  split
  next => rfl
  next =>
    have hpow : 2 ^ 149 = 2 ^ (150 - b.toNat / 2 ^ 23) * 2 ^ (b.toNat / 2 ^ 23 - 1) := by
      rw [← pow_add]
      congr 1
      omega
    rw [hpow, Nat.mul_right_comm, Nat.mul_div_mul_right _ _ (by positivity)]

/-- C0 is the floor of the exact product (R181). -/
theorem c0Of_eq_floor {c : Config} {b : Word32} (hb : isBrightness b = true) :
    (c0Of c b : ℤ) = ⌊f32Value b * (c.tUnit : ℚ)⌋ := by
  have hle : b.toNat ≤ 0x3F800000 := (isBrightness_iff b).1 hb
  have hprod : f32Value b * (c.tUnit : ℚ) = ((f32Steps b.toNat * c.tUnit : ℕ) : ℚ) / ((2 ^ 149 : ℕ) : ℚ) := by
    rw [f32Value_eq_steps (by omega)]
    push_cast
    ring
  rw [c0Of_eq_steps hb, hprod, Rat.floor_natCast_div_natCast, Int.natCast_div]

theorem c0Of_zero (c : Config) : c0Of c 0x00000000#32 = 0 := by
  rw [c0Of_eq_steps (by decide), BitVec.toNat_ofNat, Nat.zero_mod, f32Steps_of_lt (by positivity), Nat.zero_mul, Nat.zero_div]

theorem c0Of_one (c : Config) : c0Of c 0x3F800000#32 = c.tUnit := by
  have hsteps : f32Steps (0x3F800000#32).toNat = 2 ^ 149 := f32Steps_one
  rw [c0Of_eq_steps (by decide), hsteps, Nat.mul_div_cancel_left _ (by positivity)]

/-- A subnormal brightness is too small for one tick: below 2^23 steps, times a T_UNIT below 2^32. -/
theorem c0Of_of_subnormal {c : Config} {b : Word32} (hc : c.Ok) (hb : b.toNat < 2 ^ 23) : c0Of c b = 0 := by
  have hunit : c.tUnit < 2 ^ 32 := (tUnit_lt hc).trans_le (Nat.pow_le_pow_right two_pos (tw_le hc))
  have hprod : b.toNat * c.tUnit < 2 ^ 149 :=
    calc b.toNat * c.tUnit < 2 ^ 23 * 2 ^ 32 := Nat.mul_lt_mul'' hb hunit
      _ < 2 ^ 149 := by norm_num
  rw [c0Of_eq_steps ((isBrightness_iff b).2 (by omega)), f32Steps_of_lt hb, Nat.div_eq_of_lt hprod]

/-- Settles O27: value and C0 are both quotients of the same number of steps, by 2^149. -/
theorem c0IsTheExactFloor : Obligations.C0IsTheExactFloor :=
  fun c _ _ hb => ⟨c0Of_eq_floor hb, c0Of_le hb, c0Of_zero c, c0Of_one c⟩

end Sys2Proof.Machine
end

section
/-! PROOFS. R185's clamp, said of the digits of the pattern's number, and what it keeps. -/

namespace Sys2Proof.Machine

/-- A NaN: the exponent field all ones and a fraction that is not zero. -/
theorem f32_isNaN_iff (f : Word32) :
    f32Exp f = 0xFF#8 ∧ f32Frac f ≠ 0#23 ↔ f.toNat / 2 ^ 23 % 256 = 0xFF ∧ f.toNat % 2 ^ 23 ≠ 0 := by
  rw [ne_eq, ← BitVec.toNat_inj, ← BitVec.toNat_inj, f32Exp_toNat, f32Frac_toNat]
  rfl

/-- R185's four cases, each test read off the digits of the pattern's number. -/
theorem clamp_eq (f : Word32) :
    clamp f = if f.toNat / 2 ^ 23 % 256 = 0xFF ∧ f.toNat % 2 ^ 23 ≠ 0 then 0x00000000#32
      else if f.toNat / 2 ^ 31 = 1 then 0x00000000#32
      else if 0x3F800000 < f.toNat % 2 ^ 31 then 0x3F800000#32
      else f :=
  if_congr (f32_isNaN_iff f) rfl <| if_congr (f32Sign_iff f) rfl <|
    if_congr (by rw [f32Magnitude_toNat]) rfl rfl

/-- A brightness passes all three tests and is kept (R185, R29). -/
theorem clamp_of_isBrightness {f : Word32} (hf : isBrightness f = true) : clamp f = f := by
  have hle : f.toNat ≤ 0x3F800000 := (isBrightness_iff f).1 hf
  rw [clamp_eq, if_neg (by omega), if_neg (by omega), if_neg (by omega)]

/-- Settles O29: the four cases, the result's range, the order of the finite patterns, and the subnormals, which are in range. -/
theorem clampLandsInRange : Obligations.ClampLandsInRange := by
  refine fun f => ⟨clamp_eq f, clamp_isBrightness f, clamp_of_isBrightness, fun g hf hg => ?order, fun c hc hf => ?subnormal⟩
  case order => exact f32Value_le_iff (by omega) (by omega)
  case subnormal => exact ⟨clamp_of_isBrightness ((isBrightness_iff f).2 (by omega)), c0Of_of_subnormal hc hf⟩

end Sys2Proof.Machine
end

section
/-! PROOFS. The chain's steps from a RUNNING state (R202 to R206): what each fetch finds there, and the one state a turn of the
CHAIN answers in each phase. -/

namespace Sys2Proof.Machine

/-! ### Which step a turn of the CHAIN is (R201, R208) -/

/-- The hold stands at PHASE A alone (R207). -/
theorem hold_of_phase_ne {s : State} (hp : s.phase ≠ .a) : hold s = false := by
  simp [hold, hp]

theorem chainTurn_of_not_held {s : State} (hr : s.runState = .running) (hh : hold s = false) :
    chainTurn s = chainMove s := by
  simp [chainTurn, hr, hh]

theorem chainTurn_of_phase_a {s : State} (hr : s.runState = .running) (hp : s.phase = .a) (hh : hold s = false) :
    chainTurn s = stepXA s := by
  simp [chainTurn_of_not_held hr hh, chainMove, hp]

theorem chainTurn_of_phase_p {s : State} (hr : s.runState = .running) (hp : s.phase = .p) : chainTurn s = stepXP s := by
  simp [chainTurn_of_not_held hr (hold_of_phase_ne _), chainMove, hp]

theorem chainTurn_of_phase_d {s : State} (hr : s.runState = .running) (hp : s.phase = .d) : chainTurn s = stepXD s := by
  simp [chainTurn_of_not_held hr (hold_of_phase_ne _), chainMove, hp]

theorem chainTurn_of_phase_w {s : State} (hr : s.runState = .running) (hp : s.phase = .w) :
    chainTurn s = .next (stepADV s) := by
  simp [chainTurn_of_not_held hr (hold_of_phase_ne _), chainMove, hp]

/-! ### What follows the unit moved (R202, R205, R206) -/

theorem afterAddr_eq (s : State) :
    afterAddr s = { s with
      phase := if s.idx + 1 = s.cfg.addrRepeat then .p else s.phase
      idx := if s.idx + 1 = s.cfg.addrRepeat then 0 else s.idx + 1 } := by
  unfold afterAddr
  split <;> rfl

theorem afterData_eq (s : State) :
    afterData s = { s with
      idx := s.idx + 1
      phase := if s.idx + 1 = s.cfg.slice then .w else s.phase } := by
  unfold afterData
  split <;> rfl

theorem stepADV_eq (s : State) :
    stepADV s = if s.sf + 1 = s.cfg.nsf then
        { s with sf := 0, irqPending := true, trace := s.trace ++ [.irq], phase := .a, idx := 0 }
      else { s with sf := s.sf + 1, phase := .a, idx := 0 } := by
  unfold stepADV
  dsimp only
  split <;> rfl

/-! ### Fetches that find a value -/

theorem attempt_readByte {s : State} {r : Region} {off : Nat} {b : Byte} (hoff : off < regionBytes s.cfg r)
    (hb : s.byteAt r off = some b) (k : Byte → Result) : attempt (readByte r off s) k = k b := by
  rw [readByte_ok.2 ⟨hoff, hb⟩, attempt_ok]

theorem attempt_readEntry {s : State} {r : Region} {i n : Nat} (hi : (i + 1) * s.cfg.entryBytes ≤ regionBytes s.cfg r)
    (hn : s.entryAt r i = some n) (k : Word32 → Result) : attempt (readEntry r i s) k = k (BitVec.ofNat 32 n) := by
  rw [readEntry_ok.2 ⟨hi, n, hn, rfl⟩, attempt_ok]

/-! ### Where a RUNNING state's scan stands (R23) -/

theorem ScanInRange.idx_lt_addrRepeat {s : State} (h : ScanInRange s) (hp : s.phase = .a) : s.idx < s.cfg.addrRepeat := by
  obtain ⟨-, hidx⟩ := h
  rw [hp] at hidx
  exact hidx

theorem ScanInRange.idx_lt_slice {s : State} (h : ScanInRange s) (hp : s.phase = .d) : s.idx < s.cfg.slice := by
  obtain ⟨-, hidx⟩ := h
  rw [hp] at hidx
  exact hidx

/-- Unit j of sub-frame i lies inside a table of m sub-frames of n units each. -/
theorem unitOffset_lt {i j m n : Nat} (hi : i < m) (hj : j < n) : i * n + j < m * n :=
  calc i * n + j < i * n + n := Nat.add_lt_add_left hj _
    _ = (i + 1) * n := (Nat.succ_mul i n).symm
    _ ≤ m * n := Nat.mul_le_mul_right n hi

/-! ### The three regions at the scan's position -/

/-- Every byte of one sub-frame of the Address Table is its row's code (R170). -/
theorem buildAddrAt_of_subFrame {c : Config} {sf j : Nat} (hj : j < c.addrRepeat) :
    buildAddrAt c (sf * c.addrRepeat + j) = c.rowCode (c.rowOf sf) := by
  have hdiv : (sf * c.addrRepeat + j) / c.addrRepeat = sf := ((eq_mul_add_iff_div_mod hj).1 rfl).1
  rw [buildAddrAt, hdiv]

theorem addrOffset_lt {s : State} (h : ScanInRange s) (hp : s.phase = .a) :
    s.sf * s.cfg.addrRepeat + s.idx < s.cfg.addrBytes := by
  rw [addrBytes_eq]
  exact unitOffset_lt h.1 (h.idx_lt_addrRepeat hp)

theorem dataOffset_lt {s : State} (hc : s.cfg.Ok) (h : ScanInRange s) (hp : s.phase = .d) :
    s.sf * s.cfg.slice + s.idx < s.cfg.bsBytes := by
  rw [bsBytes_eq hc]
  exact unitOffset_lt h.1 (h.idx_lt_slice hp)

theorem ScanInRange.sf_lt_ttEntries {s : State} (h : ScanInRange s) : s.sf < s.cfg.ttEntries := by
  rw [ttEntries_eq]
  exact h.1

/-- The address byte at the scan's position is the row code of the sub-frame's row (R202). -/
theorem ArmedOk.addrByte {s : State} (h : ArmedOk s) (hp : s.phase = .a) :
    s.byteAt .addrTbl (s.sf * s.cfg.addrRepeat + s.idx) = some (s.cfg.rowCode (s.cfg.rowOf s.sf)) := by
  obtain ⟨haddr, -⟩ := h.tables
  rw [haddr _ (addrOffset_lt h.scan hp), buildAddrAt_of_subFrame (h.scan.idx_lt_addrRepeat hp)]

/-- The period entry at the scan's position is the period of the sub-frame's plane (R203). -/
theorem ArmedOk.periodAt {s : State} (h : ArmedOk s) :
    s.entryAt .periodTbl s.sf = some (s.cfg.tUnit * 2 ^ s.cfg.planeOf s.sf) := by
  obtain ⟨-, hper⟩ := h.tables
  exact hper s.sf h.scan.sf_lt_ttEntries

/-! ### The sub-frame after one (R206) -/

theorem eq_subFrame_iff {c : Config} {sf r k : Nat} (hk : k < c.bitDepth) :
    sf = r * c.bitDepth + k ↔ c.rowOf sf = r ∧ c.planeOf sf = k :=
  eq_mul_add_iff_div_mod hk

/-- After the last plane of a row, plane 0 of the next row. -/
theorem next_of_last_plane {c : Config} (hc : c.Ok) {sf : Nat} (h : c.planeOf sf = c.bitDepth - 1) :
    c.planeOf (sf + 1) = 0 ∧ c.rowOf (sf + 1) = c.rowOf sf + 1 := by
  have hD := bitDepth_pos hc
  have hsf := (eq_subFrame_iff (planeOf_lt hc sf)).2 ⟨rfl, rfl⟩
  exact ((eq_subFrame_iff hD).1 (by rw [Nat.succ_mul]; omega)).symm

/-- After any other plane, the next plane of the same row. -/
theorem next_of_earlier_plane {c : Config} (hc : c.Ok) {sf : Nat} (h : c.planeOf sf ≠ c.bitDepth - 1) :
    c.planeOf (sf + 1) = c.planeOf sf + 1 ∧ c.rowOf (sf + 1) = c.rowOf sf := by
  have hk := planeOf_lt hc sf
  have hsf := (eq_subFrame_iff hk).2 ⟨rfl, rfl⟩
  exact ((eq_subFrame_iff (by omega)).1 (by omega)).symm

/-! ### The four steps -/

/-- Settles O35: ADDR_TBL is BuildAddr(), so the fetch finds the row code, and the turn counts it. -/
theorem xaDrivesTheRowCode : Obligations.XaDrivesTheRowCode := by
  intro s hinv hr hp hh
  have harm := hinv.armed hr
  have hoff := addrOffset_lt harm.scan hp
  obtain ⟨-, -, haddr, -⟩ := regionBytes_ok hinv.config
  refine ⟨harm.addrByte hp, ?turn⟩
  case turn =>
    rw [chainTurn_of_phase_a hr hp hh, stepXA, attempt_readByte (hoff.trans_eq haddr.symm) (harm.addrByte hp), afterAddr_eq]
    simp only [emit, hp]

/-- Settles O36: the invariant holds PERIOD_TBL at R180's periods, wherever a SETBRI in flight stands. -/
theorem xpDrivesThePlanePeriod : Obligations.XpDrivesThePlanePeriod := by
  intro s hinv hr hp
  have harm := hinv.armed hr
  obtain ⟨-, -, -, hper, -⟩ := regionBytes_ok hinv.config
  have hfit : (s.sf + 1) * s.cfg.entryBytes ≤ regionBytes s.cfg .periodTbl :=
    (Nat.mul_le_mul_right _ harm.scan.sf_lt_ttEntries).trans_eq hper.symm
  refine ⟨harm.periodAt, ?turn⟩
  case turn =>
    rw [chainTurn_of_phase_p hr hp, stepXP, attempt_readEntry hfit harm.periodAt]
    rfl

/-- Settles O38: every byte of both buffers has been written, so the fetch from the active one finds a value. -/
theorem xdDrivesTheActiveBuffer : Obligations.XdDrivesTheActiveBuffer := by
  intro s hinv hr hp
  have harm := hinv.armed hr
  have hoff := dataOffset_lt hinv.config harm.scan hp
  obtain ⟨v, hv⟩ := harm.buffers s.active _ hoff
  obtain ⟨-, hbs, -⟩ := regionBytes_ok hinv.config
  refine ⟨v, hv, ?turn⟩
  case turn =>
    rw [chainTurn_of_phase_d hr hp, stepXD, attempt_readByte (hoff.trans_eq (hbs _).symm) hv, afterData_eq]
    simp only [emit, hp]

/-- Settles O39: the next sub-frame by the digits of SF, and the wrap where SF + 1 would be NSF. -/
theorem advAdvancesAndWraps : Obligations.AdvAdvancesAndWraps := by
  intro s hinv hr hp
  obtain ⟨hsf, -⟩ := (hinv.armed hr).scan
  refine ⟨?nextSubFrame, ?turn⟩
  case nextSubFrame =>
    split
    · next hlast => exact next_of_last_plane hinv.config hlast
    · next hearlier => exact next_of_earlier_plane hinv.config hearlier
  case turn =>
    have hwrap : s.sf + 1 = s.cfg.nsf ↔ s.sf = s.cfg.nsf - 1 := by omega
    rw [chainTurn_of_phase_w hr hp, stepADV_eq, if_congr hwrap rfl rfl]

end Sys2Proof.Machine
end

section
/-! PROOFS. BEGIN's refusal (R231): the check comes before every write, and CFG_ERR is an ordinary response. -/

namespace Sys2Proof.Machine

/-- On a configuration that is not CFG_OK, BEGIN takes R231's branch, in every RUNSTATE (R233). -/
theorem exec_beginCmd_of_not_ok {s : State} (hbad : ¬ s.cfg.Ok) : exec .beginCmd s = .next (beginRefusal s) :=
  if_neg hbad

/-- Settles O34: BEGIN answers the refusal, which raises CFG_ERR on the state with the chain stopped and the interrupt cleared. -/
theorem beginRefusesABadConfiguration : Obligations.BeginRefusesABadConfiguration := by
  intro s hbad
  have hexec : exec .beginCmd s = .next (beginRefusal s) := exec_beginCmd_of_not_ok hbad
  exact ⟨beginRefusal s, hexec, responded_raise .cfgErr _⟩

end Sys2Proof.Machine
end

section
/-! PROOFS. The out-of-range accesses (R243): the bound is tested before any byte is read or written, and RANGE_ERR is an ordinary
response. -/

namespace Sys2Proof.Machine

/-! ### The bound tests that fail (R131, R134) -/

/-- One coordinate outside is enough. -/
theorem inGrid_eq_false_iff {c : Config} {col row : Nat} : inGrid c col row = false ↔ c.cols ≤ col ∨ c.rows ≤ row := by
  simp [inGrid, imp_iff_not_or]

theorem inGridBytes_eq_false_iff {c : Config} {off : Nat} : inGridBytes c off = false ↔ c.gridBytes ≤ off := by
  simp [inGridBytes]

/-! ### The commands outside the grid -/

/-- A pixel write takes all three bytes or none: at a pixel outside the grid it raises RANGE_ERR on the state as it stands. -/
theorem setPixel_of_outside {s : State} {col row : Nat} (h : s.cfg.cols ≤ col ∨ s.cfg.rows ≤ row) (r g b : Byte) :
    setPixel col row r g b s = .next (raise .rangeErr s) := by
  have hout : inGrid s.cfg col row = false := inGrid_eq_false_iff.2 h
  simp only [setPixel, hout, Bool.false_eq_true, if_false]

theorem execLdg_of_outside {s : State} {off : Nat} (h : s.cfg.gridBytes ≤ off) :
    execLdg off s = .next (raise .rangeErr s) := by
  have hout : inGridBytes s.cfg off = false := inGridBytes_eq_false_iff.2 h
  simp only [execLdg, hout, Bool.false_eq_true, if_false]

theorem execStg_of_outside {s : State} {off : Nat} (h : s.cfg.gridBytes ≤ off) (v : Byte) :
    execStg off v s = .next (raise .rangeErr s) := by
  have hout : inGridBytes s.cfg off = false := inGridBytes_eq_false_iff.2 h
  simp only [execStg, hout, Bool.false_eq_true, if_false]

/-- Settles O9: all four commands answer the one state RANGE_ERR's response makes; SETPIXP is the pixel write of its channels. -/
theorem rangeErrIgnoresTheAccess : Obligations.RangeErrIgnoresTheAccess := by
  intro s col row off r g b v pix
  have hraise : Responded s (raise .rangeErr s) 2#8 0#32 := responded_raise .rangeErr s
  refine ⟨fun hpixel => ⟨?setpix, ?setpixp⟩, fun hoff => ⟨?ldg, ?stg⟩⟩
  case setpix => exact ⟨_, setPixel_of_outside hpixel r g b, hraise⟩
  case setpixp => exact ⟨_, setPixel_of_outside hpixel (pixR pix) (pixG pix) (pixB pix), hraise⟩
  case ldg => exact ⟨_, execLdg_of_outside hoff, hraise⟩
  case stg => exact ⟨_, execStg_of_outside hoff v, hraise⟩

end Sys2Proof.Machine
end

section
/-! PROOFS. R90 to R94 as a correspondence: a format's word has its operands in its fields and zeros in its must-be-zero bits, a
word with those bits zero is its format's word of its fields, and a word under a row's mask is that row's command. -/

namespace Sys2Proof

/-! ### The fields of each format's word (R91) -/

theorem ifClear_ok_iff {w : Command} {lo len : Nat} {i j : Instr} :
    ifClear w lo len j = .ok i ↔ w.extractLsb' lo len = 0#len ∧ j = i := by
  unfold ifClear
  split <;> simp [*]

/-- Format C has each operand in its field, above zeros. -/
theorem formatC_fields (op : Byte) {col row : Nat} (r g b : Byte) (hcol : col < 256) (hrow : row < 256) :
    opField (formatC op col row r g b) = op ∧ (colField (formatC op col row r g b)).toNat = col ∧
    (rowField (formatC op col row r g b)).toNat = row ∧ rField (formatC op col row r g b) = r ∧
    gField (formatC op col row r g b) = g ∧ bField (formatC op col row r g b) = b ∧
    (formatC op col row r g b).extractLsb' 0 16 = 0#16 := by
  have hop := op.isLt
  have hr := r.isLt
  have hg := g.isLt
  have hb := b.isLt
  refine ⟨?_, ?_, ?_, ?_, ?_, ?_, ?_⟩ <;>
    simp only [← BitVec.toNat_inj, opField, colField, rowField, rField, gField, bField, formatC, toNat_slice,
      toNat_append_eq, BitVec.toNat_ofNat] <;> omega

/-- Format P has coordinates and Pixel in their fields, above zeros. -/
theorem formatP_fields (op : Byte) {col row : Nat} (pix : BitVec 24) (hcol : col < 256) (hrow : row < 256) :
    opField (formatP op col row pix) = op ∧ (colField (formatP op col row pix)).toNat = col ∧
    (rowField (formatP op col row pix)).toNat = row ∧ pixField (formatP op col row pix) = pix ∧
    (formatP op col row pix).extractLsb' 0 16 = 0#16 := by
  have hop := op.isLt
  have hpix := pix.isLt
  refine ⟨?_, ?_, ?_, ?_, ?_⟩ <;>
    simp only [← BitVec.toNat_inj, opField, colField, rowField, pixField, formatP, toNat_slice,
      toNat_append_eq, BitVec.toNat_ofNat] <;> omega

/-- Format G has offset and val8 in their fields, above zeros. -/
theorem formatG_fields (op : Byte) {off : Nat} (val8 : Byte) (hoff : off < 65536) :
    opField (formatG op off val8) = op ∧ (offField (formatG op off val8)).toNat = off ∧
    rField (formatG op off val8) = val8 ∧ (formatG op off val8).extractLsb' 0 32 = 0#32 := by
  have hop := op.isLt
  have hval := val8.isLt
  refine ⟨?_, ?_, ?_, ?_⟩ <;>
    simp only [← BitVec.toNat_inj, opField, offField, rField, formatG, toNat_slice, toNat_append_eq,
      BitVec.toNat_ofNat] <;> omega

/-- LDG's val8 is zero, so the zeros reach up to the offset. -/
theorem formatG_zero_clear (op : Byte) (off : Nat) : (formatG op off 0#8).extractLsb' 0 40 = 0#40 := by
  simp only [← BitVec.toNat_inj, formatG, toNat_slice, toNat_append_eq, BitVec.toNat_ofNat]
  omega

/-- Format F has the pattern at the bottom, and zeros between it and OP. -/
theorem formatF_fields (op : Byte) (f32 : Word32) :
    opField (formatF op f32) = op ∧ f32Field (formatF op f32) = f32 ∧ (formatF op f32).extractLsb' 32 24 = 0#24 := by
  have hop := op.isLt
  have hf := f32.isLt
  refine ⟨?_, ?_, ?_⟩ <;>
    simp only [← BitVec.toNat_inj, opField, f32Field, formatF, toNat_slice, toNat_append_eq, BitVec.toNat_ofNat] <;> omega

/-! ### A word is its format's word of its own fields (R91) -/

/-- Two slices that touch are one slice. -/
theorem slice_append_slice (w : Command) (lo len len' : Nat) :
    w.extractLsb' (lo + len) len' ++ w.extractLsb' lo len = w.extractLsb' lo (len' + len) :=
  BitVec.extractLsb'_append_extractLsb'_eq_extractLsb' rfl

theorem formatN_of_clear {w : Command} (h : w.extractLsb' 0 56 = 0#56) : formatN (opField w) = w := by
  rw [formatN, ← h, opField, slice_append_slice w 0 56, BitVec.extractLsb'_eq_self]

theorem formatC_of_clear {w : Command} (h : w.extractLsb' 0 16 = 0#16) :
    formatC (opField w) (colField w).toNat (rowField w).toNat (rField w) (gField w) (bField w) = w := by
  simp only [formatC, ← h, opField, colField, rowField, rField, gField, bField, BitVec.ofNat_toNat, BitVec.setWidth_eq]
  rw [slice_append_slice w 48 8, slice_append_slice w 40 8, slice_append_slice w 32 8, slice_append_slice w 24 8,
    slice_append_slice w 16 8, slice_append_slice w 0 16, BitVec.extractLsb'_eq_self]

theorem formatP_of_clear {w : Command} (h : w.extractLsb' 0 16 = 0#16) :
    formatP (opField w) (colField w).toNat (rowField w).toNat (pixField w) = w := by
  simp only [formatP, ← h, opField, colField, rowField, pixField, BitVec.ofNat_toNat, BitVec.setWidth_eq]
  rw [slice_append_slice w 48 8, slice_append_slice w 40 8, slice_append_slice w 16 24, slice_append_slice w 0 16,
    BitVec.extractLsb'_eq_self]

theorem formatG_of_clear {w : Command} (h : w.extractLsb' 0 32 = 0#32) :
    formatG (opField w) (offField w).toNat (rField w) = w := by
  simp only [formatG, ← h, opField, offField, rField, BitVec.ofNat_toNat, BitVec.setWidth_eq]
  rw [slice_append_slice w 40 16, slice_append_slice w 32 8, slice_append_slice w 0 32, BitVec.extractLsb'_eq_self]

/-- LDG's must-be-zero bits are STG's and the val8 field. -/
theorem formatG_zero_of_clear {w : Command} (h : w.extractLsb' 0 40 = 0#40) :
    formatG (opField w) (offField w).toNat 0#8 = w := by
  have hzeros : (0#8 ++ 0#32 : BitVec 40) = 0#40 := rfl
  rw [formatG, BitVec.append_assoc, hzeros, ← h, opField, offField, BitVec.ofNat_toNat, BitVec.setWidth_eq,
    slice_append_slice w 40 16, BitVec.cast_eq, slice_append_slice w 0 40, BitVec.extractLsb'_eq_self]

theorem formatF_of_clear {w : Command} (h : w.extractLsb' 32 24 = 0#24) : formatF (opField w) (f32Field w) = w := by
  rw [formatF, ← h, opField, f32Field, slice_append_slice w 32 24, slice_append_slice w 0 32, BitVec.extractLsb'_eq_self]

/-! ### Decode after encode, format by format -/

theorem coordFits_iff {n : Nat} : coordFits n = true ↔ n < 256 := decide_eq_true_iff

theorem offsetFits_iff {n : Nat} : offsetFits n = true ↔ n < 65536 := decide_eq_true_iff

theorem decode_encode_getpix : decode (encode .getpix) = .ok .getpix := by decide

theorem decode_encode_setpix {col row : Nat} (r g b : Byte) (hcol : col < 256) (hrow : row < 256) :
    decode (encode (.setpix col row r g b)) = .ok (.setpix col row r g b) := by
  obtain ⟨hop, hc, hr, hR, hG, hB, hclear⟩ := formatC_fields 0x02#8 r g b hcol hrow
  simp [decode, encode, hop, hc, hr, hR, hG, hB, ifClear, hclear]

theorem decode_encode_setpixp {col row : Nat} (pix : BitVec 24) (hcol : col < 256) (hrow : row < 256) :
    decode (encode (.setpixp col row pix)) = .ok (.setpixp col row pix) := by
  obtain ⟨hop, hc, hr, hp, hclear⟩ := formatP_fields 0x03#8 pix hcol hrow
  simp [decode, encode, hop, hc, hr, hp, ifClear, hclear]

theorem decode_encode_ldg {off : Nat} (hoff : off < 65536) : decode (encode (.ldg off)) = .ok (.ldg off) := by
  obtain ⟨hop, ho, -, -⟩ := formatG_fields 0x05#8 0#8 hoff
  simp [decode, encode, hop, ho, ifClear, formatG_zero_clear]

theorem decode_encode_stg {off : Nat} (val8 : Byte) (hoff : off < 65536) :
    decode (encode (.stg off val8)) = .ok (.stg off val8) := by
  obtain ⟨hop, ho, hv, hclear⟩ := formatG_fields 0x06#8 val8 hoff
  simp [decode, encode, hop, ho, hv, ifClear, hclear]

theorem decode_encode_setbri (f32 : Word32) : decode (encode (.setbri f32)) = .ok (.setbri f32) := by
  obtain ⟨hop, hf, hclear⟩ := formatF_fields 0x09#8 f32
  simp [decode, encode, hop, hf, ifClear, hclear]

/-- Settles O3: each operand stands whole in its field, and a format-N word is one closed word. -/
theorem decodeOfEncode : Obligations.DecodeOfEncode := by
  intro i hi
  cases i with
  | beginCmd => decide
  | setpix col row r g b =>
    obtain ⟨hcol, hrow⟩ := Bool.and_eq_true_iff.1 hi
    exact decode_encode_setpix r g b (coordFits_iff.1 hcol) (coordFits_iff.1 hrow)
  | setpixp col row pix =>
    obtain ⟨hcol, hrow⟩ := Bool.and_eq_true_iff.1 hi
    exact decode_encode_setpixp pix (coordFits_iff.1 hcol) (coordFits_iff.1 hrow)
  | getpix => exact decode_encode_getpix
  | ldg off => exact decode_encode_ldg (offsetFits_iff.1 hi)
  | stg off val8 => exact decode_encode_stg val8 (offsetFits_iff.1 hi)
  | showCmd => decide
  | bufwait => decide
  | setbri f32 => exact decode_encode_setbri f32
  | getbri => decide

/-! ### Encode after decode -/

theorem coordFits_toNat (b : Byte) : coordFits b.toNat = true := coordFits_iff.2 b.isLt

theorem offsetFits_toNat (o : BitVec 16) : offsetFits o.toNat = true := offsetFits_iff.2 o.isLt

/-- A legal word of format N is the one word of its OP. -/
theorem encode_of_formatN {w : Command} {op : Byte} {i : Instr} (hi : encode i = formatN op)
    (hop : (opField w).toNat = op.toNat) (hclear : w.extractLsb' 0 56 = 0#56) : encode i = w := by
  rw [hi, ← BitVec.eq_of_toNat_eq hop, formatN_of_clear hclear]

/-- Settles O4: in each branch of the decoder the fields are read off the word and its must-be-zero bits are zero, so the
format's word of those fields is the word itself. -/
theorem encodeOfDecode : Obligations.EncodeOfDecode := by
  intro w i h
  unfold decode at h
  split at h
  case h_1 hop =>
    obtain ⟨hclear, rfl⟩ := ifClear_ok_iff.1 h
    exact ⟨rfl, encode_of_formatN rfl hop hclear⟩
  case h_2 hop =>
    obtain ⟨hclear, rfl⟩ := ifClear_ok_iff.1 h
    have hop' : opField w = 0x02#8 := BitVec.eq_of_toNat_eq hop
    exact ⟨by simp [WellFormed, coordFits_toNat], by rw [encode, ← hop', formatC_of_clear hclear]⟩
  case h_3 hop =>
    obtain ⟨hclear, rfl⟩ := ifClear_ok_iff.1 h
    have hop' : opField w = 0x03#8 := BitVec.eq_of_toNat_eq hop
    exact ⟨by simp [WellFormed, coordFits_toNat], by rw [encode, ← hop', formatP_of_clear hclear]⟩
  case h_4 hop =>
    obtain ⟨hclear, rfl⟩ := ifClear_ok_iff.1 h
    exact ⟨rfl, encode_of_formatN rfl hop hclear⟩
  case h_5 hop =>
    obtain ⟨hclear, rfl⟩ := ifClear_ok_iff.1 h
    have hop' : opField w = 0x05#8 := BitVec.eq_of_toNat_eq hop
    exact ⟨offsetFits_toNat _, by rw [encode, ← hop', formatG_zero_of_clear hclear]⟩
  case h_6 hop =>
    obtain ⟨hclear, rfl⟩ := ifClear_ok_iff.1 h
    have hop' : opField w = 0x06#8 := BitVec.eq_of_toNat_eq hop
    exact ⟨offsetFits_toNat _, by rw [encode, ← hop', formatG_of_clear hclear]⟩
  case h_7 hop =>
    obtain ⟨hclear, rfl⟩ := ifClear_ok_iff.1 h
    exact ⟨rfl, encode_of_formatN rfl hop hclear⟩
  case h_8 hop =>
    obtain ⟨hclear, rfl⟩ := ifClear_ok_iff.1 h
    exact ⟨rfl, encode_of_formatN rfl hop hclear⟩
  case h_9 hop =>
    obtain ⟨hclear, rfl⟩ := ifClear_ok_iff.1 h
    have hop' : opField w = 0x09#8 := BitVec.eq_of_toNat_eq hop
    exact ⟨rfl, by rw [encode, ← hop', formatF_of_clear hclear]⟩
  case h_10 hop =>
    obtain ⟨hclear, rfl⟩ := ifClear_ok_iff.1 h
    exact ⟨rfl, encode_of_formatN rfl hop hclear⟩
  case h_11 => cases h

/-! ### The opcode table's rows (spec/opcode_table.json) -/

/-- Every command's word is covered by the row of its mnemonic, whatever the operands. -/
theorem row_covers_encode (i : Instr) : ∃ row ∈ opcodeRows, row.mnemonic = i.mnemonic ∧ row.covers (encode i) = true := by
  cases i with
  | beginCmd => exact Laws.RowOfMnemonic.beginCmd
  | setpix col row r g b => exact Laws.RowOfMnemonic.setpix col row r g b
  | setpixp col row pix => exact Laws.RowOfMnemonic.setpixp col row pix
  | getpix => exact Laws.RowOfMnemonic.getpix
  | ldg off => exact Laws.RowOfMnemonic.ldg off
  | stg off val8 => exact Laws.RowOfMnemonic.stg off val8
  | showCmd => exact Laws.RowOfMnemonic.showCmd
  | bufwait => exact Laws.RowOfMnemonic.bufwait
  | setbri f32 => exact Laws.RowOfMnemonic.setbri f32
  | getbri => exact Laws.RowOfMnemonic.getbri

/-- Where the mask is all ones a covered word has the row's bits. -/
theorem slice_of_covers {w : Command} {row : OpcodeRow} (h : row.covers w = true) {lo len : Nat}
    (hmask : row.mask.extractLsb' lo len = BitVec.allOnes len) : w.extractLsb' lo len = row.pattern.extractLsb' lo len := by
  have hand : w &&& row.mask = row.pattern := by simpa [OpcodeRow.covers] using h
  rw [← hand, BitVec.extractLsb'_and, hmask, BitVec.and_allOnes]

/-- A row whose mask holds OP and the tested bits, and whose match is OP above zeros there, covers no word the must-be-zero test
refuses. -/
theorem ifClear_of_covers {w : Command} {row : OpcodeRow} (h : row.covers w = true) {lo len : Nat} (i : Instr)
    (hmask : row.mask.extractLsb' lo len = BitVec.allOnes len) (hzero : row.pattern.extractLsb' lo len = 0#len) :
    ifClear w lo len i = .ok i :=
  ifClear_ok_iff.2 ⟨(slice_of_covers h hmask).trans hzero, rfl⟩

/-- The decoder accepts every word of a row, under the row's mnemonic. -/
theorem decode_of_covers {w : Command} {row : OpcodeRow} (hrow : row ∈ opcodeRows) (h : row.covers w = true) :
    ∃ i, decode w = .ok i ∧ row.mnemonic = i.mnemonic := by
  have hop : row.mask.extractLsb' 56 8 = BitVec.allOnes 8 → opField w = row.pattern.extractLsb' 56 8 := slice_of_covers h
  simp only [opcodeRows, List.mem_cons, List.not_mem_nil, or_false] at hrow
  have accepted {j : Instr} {lo len : Nat} (hd : decode w = ifClear w lo len j) (hm : row.mnemonic = j.mnemonic)
      (hmask : row.mask.extractLsb' lo len = BitVec.allOnes len) (hzero : row.pattern.extractLsb' lo len = 0#len) :
      ∃ i, decode w = .ok i ∧ row.mnemonic = i.mnemonic :=
    ⟨j, hd.trans (ifClear_of_covers h j hmask hzero), hm⟩
  rcases hrow with rfl | rfl | rfl | rfl | rfl | rfl | rfl | rfl | rfl | rfl <;>
    exact accepted (by rw [decode, hop (by decide)]; rfl) rfl (by decide) (by decide)

/-- The table has one row a mnemonic. -/
theorem row_eq_of_mnemonic_eq {row row' : OpcodeRow} (h : row ∈ opcodeRows) (h' : row' ∈ opcodeRows)
    (hm : row.mnemonic = row'.mnemonic) : row = row' := by
  have hinj : ∀ a ∈ opcodeRows, ∀ b ∈ opcodeRows, a.mnemonic = b.mnemonic → a = b := by decide
  exact hinj row h row' h' hm

/-- Settles O6: a legal word is its command's encoding, which the command's row covers; a row's bits decide the decoder's branch;
and two rows covering one word have the mnemonic of the one command it decodes to. -/
theorem opcodeRowsAreTheDecoder : Obligations.OpcodeRowsAreTheDecoder := by
  refine ⟨fun w i hd => ?covered, fun w row hrow h => decode_of_covers hrow h, fun w row hrow row' hrow' h h' => ?disjoint⟩
  case covered =>
    obtain ⟨-, henc⟩ := encodeOfDecode w i hd
    rw [← henc]
    exact row_covers_encode i
  case disjoint =>
    obtain ⟨i, hi, hm⟩ := decode_of_covers hrow h
    obtain ⟨j, hj, hm'⟩ := decode_of_covers hrow' h'
    have hij : i = j := Except.ok.inj (hi.symm.trans hj)
    exact row_eq_of_mnemonic_eq hrow hrow' (hm.trans (by rw [hm', hij]))

/-! ### The spec's words (95_test_vectors.md 2.1) -/

/-- Settles O2: twelve closed words. -/
theorem vectorWordsDecode : Obligations.VectorWordsDecode := by
  unfold Obligations.VectorWordsDecode
  decide

end Sys2Proof
end

section
/-! PROOFS. The Frame Buffer Manager's commands inside the grid (R130 to R137): the bytes a pixel write and an STG leave, what LDG
and GETPIX answer, and where these commands stop on a configuration that is not CFG_OK (log 5). -/

namespace Sys2Proof.Machine

/-! ### One byte of GRID written -/

/-- GRID with the byte at an offset replaced, all else as it was. -/
def gridWrite (off : Nat) (b : Byte) (s : State) : State :=
  s.setRegion .grid (Memory.write Region.grid.unlisted s.mem.grid off b)

@[simp] theorem gridWrite_cfg (off : Nat) (b : Byte) (s : State) : (gridWrite off b s).cfg = s.cfg := rfl

theorem writeByte_grid {off : Nat} {s : State} (h : off < regionBytes s.cfg .grid) (b : Byte) :
    writeByte .grid off b s = .ok (gridWrite off b s) :=
  writeByte_ok.2 ⟨h, rfl⟩

theorem writeByte_of_beyond {r : Region} {off : Nat} {s : State} (h : regionBytes s.cfg r ≤ off) (b : Byte) :
    writeByte r off b s = .error (.outsideRegion r off) :=
  if_neg (by omega)

/-- What is read after the write: the byte there, everything else as before. -/
theorem gridWrite_spec {off : Nat} {s : State} (hw : MemoryWf s) (h : off < regionBytes s.cfg .grid) (b : Byte) :
    MemoryWf (gridWrite off b s) ∧ ∀ r off', (gridWrite off b s).byteAt r off' =
      if r = .grid ∧ off' = off then some b else s.byteAt r off' :=
  writeByte_spec (writeByte_grid h b) hw

/-! ### The bounds inside the grid (R62, R131, R134) -/

theorem inGrid_iff {c : Config} {col row : Nat} : inGrid c col row = true ↔ col < c.cols ∧ row < c.rows := by
  simp [inGrid]

theorem inGridBytes_iff {c : Config} {off : Nat} : inGridBytes c off = true ↔ off < c.gridBytes := decide_eq_true_iff

/-- Where CFG_OK holds, GRID has every byte of the geometry's grid. -/
theorem lt_gridRegion {c : Config} (hc : c.Ok) {off : Nat} (h : off < c.gridBytes) : off < regionBytes c .grid := by
  obtain ⟨hgrid, -⟩ := regionBytes_ok hc
  rwa [hgrid]

/-- A pixel of the grid has its three bytes in GRID. -/
theorem pixelByte_lt {c : Config} (hc : c.Ok) {col row ch : Nat} (hcol : col < c.cols) (hrow : row < c.rows) (hch : ch < 3) :
    pixelBase c col row + ch < c.gridBytes := by
  rw [gridBytes_eq hc]
  exact unitOffset_lt (unitOffset_lt hrow hcol) hch

/-! ### SETPIX and SETPIXP inside the grid -/

/-- The three bytes of a pixel written, the first first. -/
def pixelWritten (base : Nat) (r g b : Byte) (s : State) : State :=
  gridWrite (base + 2) b (gridWrite (base + 1) g (gridWrite base r s))

/-- A pixel write changes the regions alone. -/
theorem pixelWritten_frame (base : Nat) (r g b : Byte) (s : State) :
    pixelWritten base r g b s = { s with mem := (pixelWritten base r g b s).mem } := rfl

/-- A response after a change to the regions alone. -/
theorem respondedWithMemory_of_frame {s u : State} (h : u = { s with mem := u.mem }) (err : Byte) (val : Word32) :
    RespondedWithMemory s (respond err val u) err val := by
  rw [h]
  rfl

theorem writePixel_of_inside {s : State} {base : Nat} (h : base + 2 < regionBytes s.cfg .grid) (r g b : Byte) :
    writePixel base r g b s = .next (respond 0#8 0#32 (pixelWritten base r g b s)) := by
  rw [writePixel, writeByte_grid (by omega), attempt_ok, writeByte_grid (s := gridWrite base r s) (by rw [gridWrite_cfg]; omega),
    attempt_ok, writeByte_grid (s := gridWrite (base + 1) g (gridWrite base r s)) h, attempt_ok, pixelWritten]

theorem setPixel_of_inside {s : State} {col row : Nat} (hc : s.cfg.Ok) (hcol : col < s.cfg.cols) (hrow : row < s.cfg.rows)
    (r g b : Byte) :
    setPixel col row r g b s = .next (respond 0#8 0#32 (pixelWritten (pixelBase s.cfg col row) r g b s)) := by
  have hlt (ch : Nat) (hch : ch < 3) : pixelBase s.cfg col row + ch < regionBytes s.cfg .grid :=
    lt_gridRegion hc (pixelByte_lt hc hcol hrow hch)
  rw [setPixel, if_pos (inGrid_iff.2 ⟨hcol, hrow⟩), writePixel_of_inside (hlt 2 (by omega))]

/-- The bytes left by a pixel write: each of the three has its own offset. -/
theorem pixelWritten_spec {s : State} {base : Nat} (hw : MemoryWf s) (hbase : base + 2 < regionBytes s.cfg .grid) (r g b : Byte) :
    MemoryWf (pixelWritten base r g b s) ∧ ∀ reg off, (pixelWritten base r g b s).byteAt reg off =
      if reg = .grid ∧ off = base then some r
      else if reg = .grid ∧ off = base + 1 then some g
      else if reg = .grid ∧ off = base + 2 then some b
      else s.byteAt reg off := by
  obtain ⟨hw1, hb1⟩ := gridWrite_spec hw (off := base) (by omega) r
  obtain ⟨hw2, hb2⟩ := gridWrite_spec hw1 (off := base + 1) (by rw [gridWrite_cfg]; omega) g
  obtain ⟨hw3, hb3⟩ := gridWrite_spec hw2 (off := base + 2) (by rwa [gridWrite_cfg, gridWrite_cfg]) b
  refine ⟨hw3, fun reg off => ?bytes⟩
  case bytes =>
    rw [pixelWritten, hb3, hb2, hb1]
    grind

/-- A pixel write inside the grid: the three bytes, a (0, 0) response, and nothing else. -/
theorem setPixel_spec {s : State} {col row : Nat} (hc : s.cfg.Ok) (hw : MemoryWf s) (hcol : col < s.cfg.cols)
    (hrow : row < s.cfg.rows) (r g b : Byte) :
    ∃ t, setPixel col row r g b s = .next t ∧ MemoryWf t ∧ RespondedWithMemory s t 0#8 0#32 ∧
      ∀ reg off, t.byteAt reg off =
        if reg = .grid ∧ off = (row * s.cfg.cols + col) * 3 then some r
        else if reg = .grid ∧ off = (row * s.cfg.cols + col) * 3 + 1 then some g
        else if reg = .grid ∧ off = (row * s.cfg.cols + col) * 3 + 2 then some b
        else s.byteAt reg off := by
  obtain ⟨hwf, hbytes⟩ :=
    pixelWritten_spec hw (lt_gridRegion hc (pixelByte_lt hc hcol hrow (by omega : 2 < 3))) r g b
  refine ⟨_, setPixel_of_inside hc hcol hrow r g b, memoryWf_congr (respond_mem ..) (respond_cfg ..) hwf, ?_, fun reg off => ?_⟩
  · exact respondedWithMemory_of_frame (pixelWritten_frame ..) _ _
  · rw [byteAt_congr (respond_mem ..)]
    exact hbytes reg off

/-- Settles O7: SETPIX is the pixel write. -/
theorem setpixWritesThePixel : Obligations.SetpixWritesThePixel :=
  fun _ _ _ r g b hc hw hcol hrow => setPixel_spec hc hw hcol hrow r g b

/-- The channels of a Pixel, said arithmetically (R91). -/
theorem pix_channels (pix : BitVec 24) :
    pixR pix = BitVec.ofNat 8 (pix.toNat / 65536) ∧ pixG pix = BitVec.ofNat 8 (pix.toNat / 256) ∧
    pixB pix = BitVec.ofNat 8 pix.toNat := by
  refine ⟨?_, ?_, ?_⟩ <;> simp only [← BitVec.toNat_inj, pixR, pixG, pixB, toNat_slice, BitVec.toNat_ofNat] <;> omega

/-- The channels of three bytes put together are the three bytes. -/
theorem pix_channels_append (r g b : Byte) : pixR (r ++ g ++ b) = r ∧ pixG (r ++ g ++ b) = g ∧ pixB (r ++ g ++ b) = b := by
  have hr := r.isLt
  have hg := g.isLt
  have hb := b.isLt
  refine ⟨?_, ?_, ?_⟩ <;>
    simp only [← BitVec.toNat_inj, pixR, pixG, pixB, toNat_slice, toNat_append_eq] <;> omega

/-- Settles O8: SETPIXP is the pixel write of its Pixel's channels. -/
theorem setpixpWritesThePixel : Obligations.SetpixpWritesThePixel := by
  refine ⟨fun s col row pix hc hw hcol hrow => ?writes, fun s col row r g b => ?likeSetpix⟩
  case writes =>
    obtain ⟨hr, hg, hb⟩ := pix_channels pix
    rw [← hr, ← hg, ← hb]
    exact setPixel_spec hc hw hcol hrow (pixR pix) (pixG pix) (pixB pix)
  case likeSetpix =>
    obtain ⟨hr, hg, hb⟩ := pix_channels_append r g b
    show setPixel col row _ _ _ s = setPixel col row r g b s
    rw [hr, hg, hb]

/-! ### LDG and STG inside the grid -/

theorem execStg_of_inside {s : State} {off : Nat} (hc : s.cfg.Ok) (hoff : off < s.cfg.gridBytes) (v : Byte) :
    execStg off v s = .next (respond 0#8 0#32 (gridWrite off v s)) := by
  rw [execStg, if_pos (inGridBytes_iff.2 hoff), writeByte_grid (lt_gridRegion hc hoff), attempt_ok]

/-- GRID has a value at every offset (R38). -/
theorem byteAt_grid_isSome (s : State) (off : Nat) : ∃ v, s.byteAt .grid off = some v :=
  read_isSome_of_default s.mem.grid off

/-- Settles O10: GRID has a byte at every offset, and CFG_OK puts this one inside the region. -/
theorem ldgAnswersTheGridByte : Obligations.LdgAnswersTheGridByte := by
  intro s off hc hoff
  obtain ⟨v, hv⟩ := byteAt_grid_isSome s off
  have hexec : exec (.ldg off) s = .next (respond 0#8 (v.setWidth 32) s) := by
    show execLdg off s = _
    rw [execLdg, if_pos (inGridBytes_iff.2 hoff), attempt_readByte (lt_gridRegion hc hoff) hv]
  exact ⟨v, _, hv, hexec, by rw [BitVec.ofNat_toNat]; rfl⟩

/-- Settles O11: STG is one byte of GRID written, and a response. -/
theorem stgWritesOneGridByte : Obligations.StgWritesOneGridByte := by
  intro s off v hc hw hoff
  obtain ⟨hwf, hbytes⟩ := gridWrite_spec hw (lt_gridRegion hc hoff) v
  exact ⟨_, execStg_of_inside hc hoff v, hwf, rfl, hbytes⟩

/-- Settles O12: both are the same three writes to GRID; the responses between them touch no region. -/
theorem threeStgsEqualOneSetpix : Obligations.ThreeStgsEqualOneSetpix := by
  intro s col row r g b hc hcol hrow
  have hlt (ch : Nat) (hch : ch < 3) : pixelBase s.cfg col row + ch < s.cfg.gridBytes := pixelByte_lt hc hcol hrow hch
  have h1 := execStg_of_inside hc (hlt 0 (by omega)) r
  have h2 := execStg_of_inside (s := respond 0#8 0#32 (gridWrite (pixelBase s.cfg col row) r s)) hc (hlt 1 (by omega)) g
  have h3 := execStg_of_inside (s := respond 0#8 0#32 (gridWrite (pixelBase s.cfg col row + 1) g
    (respond 0#8 0#32 (gridWrite (pixelBase s.cfg col row) r s)))) hc (hlt 2 (by omega)) b
  exact ⟨_, _, _, _, h1, h2, h3, setPixel_of_inside hc hcol hrow r g b, rfl⟩

/-! ### GETPIX -/

/-- OP 0x04 alone picks GETPIX's branch. -/
theorem decode_of_op_getpix {w : Command} (hop : opField w = 0x04#8) : decode w = ifClear w 0 56 .getpix := by
  rw [decode, hop]
  rfl

/-- Settles O13: the handle is a response, and of OP 0x04 only GETPIX's own encoding is legal. -/
theorem getpixAnswersTheHandle : Obligations.GetpixAnswersTheHandle := by
  refine ⟨fun s => ⟨_, rfl, rfl⟩, decode_encode_getpix, fun w hop hw => ?otherWords⟩
  case otherWords =>
    rw [decode_of_op_getpix hop]
    refine ifClear_error_iff.2 fun hclear => hw ?_
    rw [← formatN_of_clear hclear, hop]
    rfl

/-! ### A configuration that is not CFG_OK (log 5) -/

theorem execLdg_of_beyond {s : State} {off : Nat} (hoff : off < s.cfg.gridBytes) (hcap : s.cfg.capGrid ≤ off) :
    execLdg off s = .fault (.outsideRegion .grid off) := by
  have hread : readByte .grid off s = .error (.outsideRegion .grid off) := if_neg (by simp [regionBytes]; omega)
  rw [execLdg, if_pos (inGridBytes_iff.2 hoff), hread, attempt_error]

theorem execStg_of_beyond {s : State} {off : Nat} (hoff : off < s.cfg.gridBytes) (hcap : s.cfg.capGrid ≤ off) (v : Byte) :
    execStg off v s = .fault (.outsideRegion .grid off) := by
  rw [execStg, if_pos (inGridBytes_iff.2 hoff), writeByte_of_beyond ((min_le_right _ _).trans hcap), attempt_error]

/-- A pixel write goes byte by byte up to the first byte GRID does not have. -/
theorem writePixel_of_beyond {s : State} {base : Nat} (h : regionBytes s.cfg .grid ≤ base + 2) (r g b : Byte) :
    writePixel base r g b s = .fault (.outsideRegion .grid (max base (regionBytes s.cfg .grid))) := by
  rw [writePixel]
  rcases Nat.lt_or_ge base (regionBytes s.cfg .grid) with h0 | h0
  · rw [writeByte_grid h0, attempt_ok]
    rcases Nat.lt_or_ge (base + 1) (regionBytes s.cfg .grid) with h1 | h1
    · have hfirst : max base (regionBytes s.cfg .grid) = base + 2 := by omega
      rw [writeByte_grid (s := gridWrite base r s) h1, attempt_ok,
        writeByte_of_beyond (s := gridWrite (base + 1) g (gridWrite base r s)) h, attempt_error, hfirst]
    · have hfirst : max base (regionBytes s.cfg .grid) = base + 1 := by omega
      rw [writeByte_of_beyond (s := gridWrite base r s) h1, attempt_error, hfirst]
  · rw [writeByte_of_beyond h0, attempt_error, max_eq_left h0]

theorem setPixel_of_beyond {s : State} {col row : Nat} (hcol : col < s.cfg.cols) (hrow : row < s.cfg.rows)
    (h : regionBytes s.cfg .grid ≤ pixelBase s.cfg col row + 2) (r g b : Byte) :
    setPixel col row r g b s =
      .fault (.outsideRegion .grid (max (pixelBase s.cfg col row) (regionBytes s.cfg .grid))) := by
  rw [setPixel, if_pos (inGrid_iff.2 ⟨hcol, hrow⟩), writePixel_of_beyond h]

/-- Settles O16: the two refusals, and the grid accesses beyond the lesser of GRID_BYTES and CAP_GRID. -/
theorem badConfigurationStops : Obligations.BadConfigurationStops := by
  intro s f off col row v r g b pix hbad
  refine ⟨if_neg hbad, if_neg hbad, fun hoff hcap => ?byte, fun hcol hrow hlast => ?pixel⟩
  case byte => exact ⟨execLdg_of_beyond hoff hcap, execStg_of_beyond hoff hcap v⟩
  case pixel => exact ⟨setPixel_of_beyond hcol hrow hlast _ _ _, setPixel_of_beyond hcol hrow hlast _ _ _⟩

end Sys2Proof.Machine
end

section
/-! PROOFS. R160's properties of Encode: a data byte is decided by bit k of its pixel's three channels and by nothing else, and
COL_AT names each column's one position. -/

namespace Sys2Proof.Machine

/-! ### One line's bit (R97) -/

theorem lineBit_zero (k pos : Nat) : lineBit 0#8 k pos = 0#8 := by simp [lineBit]

theorem lineBit_ones {k : Nat} (hk : k < 8) (pos : Nat) : lineBit 255#8 k pos = 1#8 <<< pos := by
  have hbit : (255#8 : Byte).getLsbD k = true := by
    rw [show (255#8 : Byte) = BitVec.allOnes 8 from rfl, BitVec.getLsbD_allOnes]
    exact decide_eq_true hk
  rw [lineBit, if_pos hbit]

/-- A channel of 2^k has bit k alone. -/
theorem lineBit_two_pow {k : Nat} (hk : k < 8) (j pos : Nat) :
    lineBit (BitVec.ofNat 8 (2 ^ k)) j pos = if j = k then 1#8 <<< pos else 0#8 := by
  have hbit : (BitVec.ofNat 8 (2 ^ k)).getLsbD j = decide (j = k) := by
    rw [BitVec.getLsbD_ofNat, Nat.testBit_two_pow, Bool.eq_iff_iff]
    simp only [Bool.and_eq_true, decide_eq_true_eq]
    omega
  simp only [lineBit, hbit, decide_eq_true_eq]

/-- A line's bit stands at the line's position alone. -/
theorem lineBit_getLsbD {pos : Nat} (hpos : pos < 8) (v : Byte) (k i : Nat) :
    (lineBit v k pos).getLsbD i = (decide (i = pos) && v.getLsbD k) := by
  by_cases hv : v.getLsbD k = true
  · have hbit : (1#8 <<< pos).getLsbD i = decide (i = pos) := by
      rw [BitVec.getLsbD_shiftLeft, BitVec.getLsbD_one, Bool.eq_iff_iff]
      simp only [Bool.and_eq_true, Bool.not_eq_true', decide_eq_true_eq, decide_eq_false_iff_not]
      omega
    rw [lineBit, if_pos hv, hbit, hv, Bool.and_true]
  · rw [lineBit, if_neg hv, eq_false_of_ne_true hv, Bool.and_false, BitVec.getLsbD_zero]

/-! ### The four lines have four places (R7) -/

/-- Where the line of channel ch stands in an output byte (R97). -/
def linePos (c : Config) (ch : Nat) : Nat :=
  match ch with
  | 0 => c.rPos
  | 1 => c.gPos
  | _ => c.bPos

/-- R7's conditions on the places: inside the byte, pairwise different, and IDLE_BITS clear there. -/
theorem linePlaces {c : Config} (hc : c.Ok) :
    (c.rPos < 8 ∧ c.gPos < 8 ∧ c.bPos < 8 ∧ c.clkPos < 8) ∧
    (c.rPos ≠ c.gPos ∧ c.rPos ≠ c.bPos ∧ c.rPos ≠ c.clkPos ∧ c.gPos ≠ c.bPos ∧ c.gPos ≠ c.clkPos ∧ c.bPos ≠ c.clkPos) ∧
    (c.idleBits.getLsbD c.rPos = false ∧ c.idleBits.getLsbD c.gPos = false ∧ c.idleBits.getLsbD c.bPos = false ∧
      c.idleBits.getLsbD c.clkPos = false) := by
  obtain ⟨⟨-, -, -, -, -, -, hlt, hnodup, hidle, -⟩, -⟩ := hc
  simp only [List.nodup_cons, List.mem_cons, List.not_mem_nil, or_false, not_or] at hnodup
  obtain ⟨⟨hrg, hrb, hrk⟩, ⟨hgb, hgk⟩, hbk, -⟩ := hnodup
  exact ⟨hlt, ⟨hrg, hrb, hrk, hgb, hgk, hbk⟩, hidle⟩

/-- The data byte bit by bit: IDLE_BITS, and each colour's bit k at its place (R97). -/
theorem dataByte_getLsbD {c : Config} (hc : c.Ok) (grid : Nat → Byte) (r k p i : Nat) :
    (dataByte c grid r k p).getLsbD i = (c.idleBits.getLsbD i ||
      decide (i = c.rPos) && (channel c grid (c.colAt p) r 0).getLsbD k ||
      decide (i = c.gPos) && (channel c grid (c.colAt p) r 1).getLsbD k ||
      decide (i = c.bPos) && (channel c grid (c.colAt p) r 2).getLsbD k) := by
  obtain ⟨⟨hr, hg, hb, -⟩, -, -⟩ := linePlaces hc
  simp only [dataByte, BitVec.getLsbD_or, lineBit_getLsbD hr, lineBit_getLsbD hg, lineBit_getLsbD hb]

/-- The data byte has bit k of channel ch on the channel's line. -/
theorem dataByte_getLsbD_linePos {c : Config} (hc : c.Ok) (grid : Nat → Byte) (r k p : Nat) {ch : Nat} (hch : ch < 3) :
    (dataByte c grid r k p).getLsbD (linePos c ch) = (channel c grid (c.colAt p) r ch).getLsbD k := by
  obtain ⟨-, ⟨hrg, hrb, -, hgb, -, -⟩, hidleR, hidleG, hidleB, -⟩ := linePlaces hc
  rw [dataByte_getLsbD hc]
  have hch' : ch = 0 ∨ ch = 1 ∨ ch = 2 := by omega
  rcases hch' with rfl | rfl | rfl
  · simp only [linePos, hidleR, hrg, hrb, decide_true, decide_false, Bool.false_or, Bool.true_and, Bool.false_and, Bool.or_false]
  · simp only [linePos, hidleG, hrg.symm, hgb, decide_true, decide_false, Bool.false_or, Bool.true_and, Bool.false_and,
      Bool.or_false]
  · simp only [linePos, hidleB, hrb.symm, hgb.symm, decide_true, decide_false, Bool.false_or, Bool.true_and, Bool.false_and]

/-- The data byte has the clock bit clear (R98). -/
theorem dataByte_getLsbD_clkPos {c : Config} (hc : c.Ok) (grid : Nat → Byte) (r k p : Nat) :
    (dataByte c grid r k p).getLsbD c.clkPos = false := by
  obtain ⟨-, ⟨-, -, hrk, -, hgk, hbk⟩, -, -, -, hidle⟩ := linePlaces hc
  simp only [dataByte_getLsbD hc, hidle, hrk.symm, hgk.symm, hbk.symm, decide_false, Bool.false_and, Bool.or_false]

/-- Two grids give a pair the same data byte exactly when bit k of its pixel's three channels is the same in both. -/
theorem dataByte_eq_iff {c : Config} (hc : c.Ok) (g g' : Nat → Byte) (r k p : Nat) :
    dataByte c g' r k p = dataByte c g r k p ↔
      ∀ ch, ch < 3 → (channel c g' (c.colAt p) r ch).getLsbD k = (channel c g (c.colAt p) r ch).getLsbD k := by
  refine ⟨fun h ch hch => ?_, fun h => ?_⟩
  · rw [← dataByte_getLsbD_linePos hc g' r k p hch, h, dataByte_getLsbD_linePos hc g r k p hch]
  · simp only [dataByte, lineBit, h 0 (by omega), h 1 (by omega), h 2 (by omega)]

/-! ### The black grid, and the clock byte of any grid -/

/-- The black grid's data bytes are blank. -/
theorem dataByte_black (c : Config) (r k p : Nat) : dataByte c (fun _ => 0#8) r k p = c.idleBits := by
  simp [dataByte, channel, lineBit_zero]

/-- The two bytes of a pair, wherever in the buffer or beyond it the pair stands. -/
theorem encodeAt_pair (c : Config) (grid : Nat → Byte) (pair : Nat) :
    encodeAt c grid (2 * pair) = dataByte c grid (pair / c.cols / c.bitDepth) (pair / c.cols % c.bitDepth) (pair % c.cols) ∧
    encodeAt c grid (2 * pair + 1) = clockByte c grid (pair / c.cols / c.bitDepth) (pair / c.cols % c.bitDepth) (pair % c.cols) := by
  have hdata : 2 * pair / 2 = pair := by omega
  have hclock : (2 * pair + 1) / 2 = pair := by omega
  refine ⟨encodeAt_of_byteCoords (h := 0) grid ?_, encodeAt_of_byteCoords (h := 1) grid ?_⟩
  · simp only [byteCoords, hdata, Nat.mul_mod_right]
  · simp only [byteCoords, hclock, Nat.mul_add_mod]

/-- Settles O20: the black grid lights no line, and the clock bit is no colour's line. -/
theorem encodeBlankAndClock : Obligations.EncodeBlankAndClock := by
  intro c grid pair hc
  obtain ⟨hblack, hblackClk⟩ := encodeAt_pair c (fun _ => 0#8) pair
  obtain ⟨hdata, hclk⟩ := encodeAt_pair c grid pair
  rw [hblack, hblackClk, hdata, hclk]
  exact ⟨⟨dataByte_black .., by rw [clockByte, dataByte_black]; rfl⟩, dataByte_getLsbD_clkPos hc .., rfl⟩

/-! ### One plane, one pixel -/

theorem bitDepth_le {c : Config} (hc : c.Ok) : c.bitDepth ≤ 8 := by
  obtain ⟨⟨-, -, ⟨-, hle⟩, -⟩, -⟩ := hc
  exact hle

/-- Settles O18: a channel of 2^k has bit k alone, on all three lines. -/
theorem encodeSinglePlane : Obligations.EncodeSinglePlane := by
  intro c k r j p hc hk _ hj hp
  have hk8 : k < 8 := hk.trans_le (bitDepth_le hc)
  rw [(encodeAt_pairOff _ hj hp).1, dataByte]
  simp only [channel, lineBit_two_pow hk8]
  split <;> simp

/-- Byte 0 of the grid is the red channel of pixel (0, 0). -/
theorem channelOffset_eq_zero_iff {c : Config} (hc : c.Ok) {col row ch : Nat} :
    (row * c.cols + col) * 3 + ch = 0 ↔ row = 0 ∧ col = 0 ∧ ch = 0 := by
  have hcols : c.cols ≠ 0 := (cols_pos hc).ne'
  simp [hcols, and_assoc]

/-- Settles O19: the one channel that is not black is red, of pixel (0, 0), and has every bit. -/
theorem encodeOneRedPixel : Obligations.EncodeOneRedPixel := by
  intro c r k p hc _ hk hp
  have hk8 : k < 8 := hk.trans_le (bitDepth_le hc)
  rw [(encodeAt_pairOff _ hk hp).1, dataByte]
  simp only [channel, channelOffset_eq_zero_iff hc]
  by_cases hpix : r = 0 ∧ c.colAt p = 0
  · simp [hpix, lineBit_zero, lineBit_ones hk8]
  · simp [hpix, lineBit_zero]

/-! ### COL_AT is a permutation (R7, R153) -/

theorem colOrder_perm {c : Config} (hc : c.Ok) : c.colOrder.Perm (List.range c.cols) := by
  obtain ⟨⟨-, -, -, -, -, -, -, -, -, hperm, -⟩, -⟩ := hc
  exact hperm

theorem colAt_lt {c : Config} (hc : c.Ok) {p : Nat} (hp : p < c.cols) : c.colAt p < c.cols := by
  have hperm := colOrder_perm hc
  have hlen : p < c.colOrder.length := by rwa [hperm.length_eq, List.length_range]
  rw [Config.colAt, List.getD_eq_getElem _ _ hlen]
  exact List.mem_range.1 (hperm.mem_iff.1 (List.getElem_mem hlen))

/-- Every column has exactly one position. -/
theorem existsUnique_colAt {c : Config} (hc : c.Ok) {col : Nat} (hcol : col < c.cols) :
    ∃! p, p < c.cols ∧ c.colAt p = col := by
  have hperm := colOrder_perm hc
  have hlen : c.colOrder.length = c.cols := by rw [hperm.length_eq, List.length_range]
  have hnodup : c.colOrder.Nodup := hperm.nodup_iff.2 List.nodup_range
  obtain ⟨p, hp, hcolp⟩ := List.mem_iff_getElem.1 (hperm.mem_iff.2 (List.mem_range.2 hcol))
  refine ⟨p, ⟨hlen ▸ hp, (List.getD_eq_getElem _ _ hp).trans hcolp⟩, ?unique⟩
  rintro q ⟨hq, hcolq⟩
  have hq' : q < c.colOrder.length := hlen.symm ▸ hq
  rw [Config.colAt, List.getD_eq_getElem _ _ hq'] at hcolq
  exact (hnodup.getElem_inj_iff).1 (hcolq.trans hcolp.symm)

/-! ### A pixel's bytes are its own (R62) -/

/-- With column and channel in range, an offset of the grid belongs to one pixel and channel. -/
theorem channelOffset_inj {c : Config} {col row ch col' row' ch' : Nat} (hcol : col < c.cols) (hcol' : col' < c.cols)
    (hch : ch < 3) (hch' : ch' < 3) :
    (row * c.cols + col) * 3 + ch = (row' * c.cols + col') * 3 + ch' ↔ row = row' ∧ col = col' ∧ ch = ch' := by
  rw [eq_mul_add_iff_div_mod hch', ← eq_comm (a := row' * c.cols + col'), ← and_assoc]
  have hdiv : ((row * c.cols + col) * 3 + ch) / 3 = row * c.cols + col := by omega
  have hmod : ((row * c.cols + col) * 3 + ch) % 3 = ch := by omega
  rw [hdiv, hmod, eq_comm (a := row' * c.cols + col'), eq_mul_add_iff_div_mod hcol']
  obtain ⟨hdiv', hmod'⟩ := (eq_mul_add_iff_div_mod hcol).1 (rfl : row * c.cols + col = row * c.cols + col)
  rw [hdiv', hmod']

/-- A change to one pixel leaves the channels of every other. -/
theorem channel_of_other_pixel {c : Config} {g g' : Nat → Byte} {col row : Nat}
    (hsame : ∀ off, ¬ InPixel c col row off → g' off = g off) (hcol : col < c.cols) {col' row' ch : Nat} (hcol' : col' < c.cols)
    (hch : ch < 3) (hother : ¬ (row' = row ∧ col' = col)) : channel c g' col' row' ch = channel c g col' row' ch := by
  refine hsame _ ?_
  rintro ⟨ch', hch', heq⟩
  obtain ⟨hrow, hcol, -⟩ := (channelOffset_inj hcol' hcol hch hch').1 heq
  exact hother ⟨hrow, hcol⟩

/-- With one bit of one channel flipped, the data byte that changes is that of its row, plane and column. -/
theorem dataByte_ne_iff_of_flip {c : Config} {g g' : Nat → Byte} {col row ch k : Nat} (hc : c.Ok) (hcol : col < c.cols)
    (hch : ch < 3) (hk : k < 8)
    (hflip : ∀ off, g' off = if off = (row * c.cols + col) * 3 + ch then g off ^^^ (1#8 <<< k) else g off)
    (r j : Nat) {p : Nat} (hp : p < c.cols) :
    dataByte c g' r j p ≠ dataByte c g r j p ↔ r = row ∧ j = k ∧ c.colAt p = col := by
  have hbit (v : Byte) : (v ^^^ (1#8 <<< k)).getLsbD j = (v.getLsbD j ^^ decide (j = k)) := by
    rw [BitVec.getLsbD_xor, BitVec.getLsbD_shiftLeft, BitVec.getLsbD_one]
    congr 1
    rw [Bool.eq_iff_iff]
    simp only [Bool.and_eq_true, Bool.not_eq_true', decide_eq_true_eq, decide_eq_false_iff_not]
    omega
  have hchannel (ch' : Nat) (hch' : ch' < 3) :
      (channel c g' (c.colAt p) r ch').getLsbD j = (channel c g (c.colAt p) r ch').getLsbD j ↔
        ¬ ((r = row ∧ c.colAt p = col ∧ ch' = ch) ∧ j = k) := by
    rw [channel, channel, hflip, ← channelOffset_inj (colAt_lt hc hp) hcol hch' hch]
    split
    · next heq =>
      rw [hbit]
      cases (g ((r * c.cols + c.colAt p) * 3 + ch')).getLsbD j <;> simp [heq]
    · next hne => simp [hne]
  rw [ne_eq, dataByte_eq_iff hc]
  refine ⟨fun h => ?_, ?_⟩
  · by_contra hne
    exact h fun ch' hch' => (hchannel ch' hch').2 fun ⟨⟨hr, hp, _⟩, hj⟩ => hne ⟨hr, hj, hp⟩
  · rintro ⟨hr, hj, hp⟩ h
    exact (hchannel ch hch).1 (h ch hch) ⟨⟨hr, hp, rfl⟩, hj⟩

/-- Settles O21: a pair reads its own pixel's channels alone, bit k of each alone, and COL_AT names the column's one position. -/
theorem encodeIsLocal : Obligations.EncodeIsLocal := by
  intro c g g' col row hc hcol hrow
  refine ⟨fun hsame r k p _ hk hp hother => ?otherPairs, fun ch k hch hk hflip => ?oneBit⟩
  case otherPairs =>
    have hdata : dataByte c g' r k p = dataByte c g r k p :=
      (dataByte_eq_iff hc g g' r k p).2 fun ch hch =>
        congrArg (·.getLsbD k) (channel_of_other_pixel hsame hcol (colAt_lt hc hp) hch hother)
    obtain ⟨hd, hclk⟩ := encodeAt_pairOff g hk hp
    obtain ⟨hd', hclk'⟩ := encodeAt_pairOff g' hk hp
    rw [hd, hclk, hd', hclk', clockByte, clockByte, hdata]
    exact ⟨rfl, rfl⟩
  case oneBit =>
    have hne (r j p : Nat) (hj : j < c.bitDepth) (hp : p < c.cols) :
        encodeAt c g' (pairOff c r j p) ≠ encodeAt c g (pairOff c r j p) ↔ r = row ∧ j = k ∧ c.colAt p = col := by
      rw [(encodeAt_pairOff g hj hp).1, (encodeAt_pairOff g' hj hp).1]
      exact dataByte_ne_iff_of_flip hc hcol hch (hk.trans_le (bitDepth_le hc)) hflip r j hp
    obtain ⟨p, ⟨hp, hcolp⟩, hunique⟩ := existsUnique_colAt hc hcol
    refine ⟨(row, k, p), ⟨hrow, hk, hp, (hne row k p hk hp).2 ⟨rfl, rfl, hcolp⟩⟩, ?_⟩
    rintro ⟨r, j, q⟩ ⟨-, hj, hq, hdiff⟩
    obtain ⟨rfl, rfl, hcolq⟩ := (hne r j q hj hq).1 hdiff
    rw [hunique q ⟨hq, hcolq⟩]

end Sys2Proof.Machine
end

section
/-! PROOFS. R184's laws of the compare values: all from C0 being the floor of value(b) * T_UNIT, and from the geometric sum. -/

namespace Sys2Proof.Machine

theorem tUnit_pos {c : Config} (hc : c.Ok) : 0 < c.tUnit := by
  obtain ⟨⟨-, -, -, -, -, -, -, -, -, -, -, -, ⟨hpos, -⟩, -⟩, -⟩ := hc
  exact hpos

/-- A compare value is twice the one of the plane below it (R182). -/
theorem compareOf_succ (c0 k : Nat) : compareOf c0 (k + 1) = 2 * compareOf c0 k := by
  rw [compareOf, compareOf, pow_succ', Nat.mul_left_comm]

/-- C0 is the exact product quantised downwards, by less than one tick (R181). -/
theorem c0Of_quantised {c : Config} {b : Word32} (hb : isBrightness b = true) :
    (c0Of c b : ℚ) ≤ f32Value b * c.tUnit ∧ f32Value b * c.tUnit < c0Of c b + 1 := by
  have hfloor : (c0Of c b : ℚ) = (⌊f32Value b * (c.tUnit : ℚ)⌋ : ℚ) := by exact_mod_cast c0Of_eq_floor hb
  rw [hfloor]
  exact ⟨Int.floor_le _, Int.lt_floor_add_one _⟩

/-- The row's compares miss b * ROW_SLICE by less than a tick for each of its 2^D - 1 units (R184 item 2). -/
theorem compareSum_near {c : Config} {b : Word32} (hc : c.Ok) (hb : isBrightness b = true) :
    |f32Value b * ((c.tUnit * (2 ^ c.bitDepth - 1) : ℕ) : ℚ) - ((c0Of c b * (2 ^ c.bitDepth - 1) : ℕ) : ℚ)| <
      ((2 ^ c.bitDepth - 1 : ℕ) : ℚ) := by
  obtain ⟨hlow, hhigh⟩ := c0Of_quantised (c := c) hb
  have hunits : 0 < 2 ^ c.bitDepth - 1 := Nat.sub_pos_of_lt (Nat.one_lt_two_pow (bitDepth_pos hc).ne')
  have hpos : (0 : ℚ) < ((2 ^ c.bitDepth - 1 : ℕ) : ℚ) := Nat.cast_pos.2 hunits
  generalize 2 ^ c.bitDepth - 1 = n at hpos ⊢
  have hfactor : f32Value b * ((c.tUnit * n : ℕ) : ℚ) - ((c0Of c b * n : ℕ) : ℚ) = (f32Value b * c.tUnit - c0Of c b) * n := by
    push_cast
    ring
  rw [hfactor, abs_mul, abs_of_nonneg (sub_nonneg.2 hlow), abs_of_pos hpos]
  exact mul_lt_of_lt_one_left hpos (by linarith)

/-- C0 is monotone in the brightness's value (R184 item 5). -/
theorem c0Of_mono {c : Config} {b b' : Word32} (hb : isBrightness b = true) (hb' : isBrightness b' = true)
    (h : f32Value b ≤ f32Value b') : c0Of c b ≤ c0Of c b' := by
  have hfloor : (c0Of c b : ℤ) ≤ c0Of c b' := by
    rw [c0Of_eq_floor hb, c0Of_eq_floor hb']
    exact Int.floor_le_floor (mul_le_mul_of_nonneg_right h (Nat.cast_nonneg _))
  exact_mod_cast hfloor

/-- A brightness below 1 / T_UNIT gives no tick (R184 item 6). -/
theorem c0Of_of_small {c : Config} {b : Word32} (hc : c.Ok) (hb : isBrightness b = true)
    (h : f32Value b < 1 / (c.tUnit : ℚ)) : c0Of c b = 0 := by
  have hT : (0 : ℚ) < c.tUnit := Nat.cast_pos.2 (tUnit_pos hc)
  have hlow : (c0Of c b : ℚ) < 1 := (c0Of_quantised hb).1.trans_lt ((lt_div_iff₀ hT).1 h)
  exact Nat.lt_one_iff.1 (by exact_mod_cast hlow)

/-- Settles O28: doubling and sum are the powers of two's, the rest is the floor's. -/
theorem compareValueLaws : Obligations.CompareValueLaws := by
  intro c b b' hc hb hb'
  have hsum : ((List.range c.bitDepth).map (compareOf (c0Of c b))).sum = c0Of c b * (2 ^ c.bitDepth - 1) :=
    sum_range_mul_two_pow (c0Of c b) c.bitDepth
  refine ⟨fun k => ⟨compareOf_succ _ k, Nat.mul_le_mul_right _ (c0Of_le hb), ?blank⟩, hsum, ?near, c0Of_mono hb hb',
    c0Of_of_small hc hb⟩
  case blank => rw [c0Of_zero, compareOf, Nat.zero_mul]
  case near =>
    rw [hsum]
    exact compareSum_near hc hb

end Sys2Proof.Machine
end

section
/-! PROOFS. BEGIN where CFG_OK holds (R232): what its five builders leave to be read, and the record of everything it writes. -/

namespace Sys2Proof.Machine

/-! ### The builders' values, said arithmetically -/

/-- A number that fits TW bits is held as it is. -/
theorem truncEntry_of_lt {c : Config} {v : Nat} (h : v < 2 ^ c.tw) : truncEntry c v = BitVec.ofNat 32 v := by
  rw [truncEntry, Nat.mod_eq_of_lt h]

/-- C0 as T0 and BEGIN latch it from a brightness (R186, R232). -/
theorem truncEntry_c0Of {c : Config} {b : Word32} (hc : c.Ok) (hb : isBrightness b = true) :
    truncEntry c (c0Of c b) = BitVec.ofNat 32 (c0Of c b) :=
  truncEntry_of_lt ((c0Of_le hb).trans_lt (tUnit_lt hc))

/-- The product's floor fits the register (R30). -/
theorem c0_toNat_of_ofNat {c : Config} {b : Word32} (hc : c.Ok) (hb : isBrightness b = true) :
    (BitVec.ofNat 32 (c0Of c b)).toNat = c0Of c b := by
  rw [← truncEntry_c0Of hc hb, truncEntry_toNat (tw_le hc), Nat.mod_eq_of_lt ((c0Of_le hb).trans_lt (tUnit_lt hc))]

/-- The black grid's byte at an offset: the blank pair throughout (R160 item 4). -/
theorem encodeAt_black (c : Config) (off : Nat) :
    encodeAt c blackGrid off = if off % 2 = 0 then c.idleBits else c.idleBits ||| (1#8 <<< c.clkPos) := by
  rw [encodeAt_of_byteCoords blackGrid rfl]
  exact if_congr Iff.rfl (dataByte_black ..) (congrArg (· ||| c.clkMask) (dataByte_black ..))

/-! ### What is read after BEGIN -/

/-- The state BEGIN builds its tables from: the chain stopped, the Address Table built, C0 latched. -/
def beginLatched (s : State) : State := latchC0 (buildAddrTable { s with runState := .idle })

theorem beginEffect_eq (s : State) :
    beginEffect s = respond 0#8 0#32 (armChain (blankBuffers (buildTimingTable (beginLatched s)))) := rfl

@[simp] theorem beginLatched_cfg (s : State) : (beginLatched s).cfg = s.cfg := rfl

@[simp] theorem buildTimingTable_cfg (s : State) : (buildTimingTable s).cfg = s.cfg := by
  rw [buildTimingTable, fillEntries_cfg, fillEntries_cfg]

/-- What the latched state holds: the Address Table, and a C0 of at most T_UNIT. -/
theorem beginLatched_spec {s : State} (hc : s.cfg.Ok) (hw : MemoryWf s) (hb : isBrightness s.bright = true) :
    MemoryWf (beginLatched s) ∧
    (∀ off, off < s.cfg.addrBytes → (beginLatched s).byteAt .addrTbl off = some (buildAddrAt s.cfg off)) ∧
    (beginLatched s).c0.toNat = c0Of s.cfg s.bright := by
  obtain ⟨hwf, haddr, -⟩ := buildAddrTable_spec (s := { s with runState := .idle }) hc (memoryWf_congr (s := s) rfl rfl hw)
  exact ⟨memoryWf_congr (s := buildAddrTable { s with runState := .idle }) rfl rfl hwf,
    fun off ho => (byteAt_congr rfl _ _).trans (haddr off ho), latchC0_toNat hc hb⟩

/-- The tables and the buffers BEGIN leaves (R232). -/
theorem beginEffect_spec {s : State} (hc : s.cfg.Ok) (hw : MemoryWf s) (hb : isBrightness s.bright = true) :
    MemoryWf (beginEffect s) ∧
    (∀ off, off < s.cfg.addrBytes → (beginEffect s).byteAt .addrTbl off = some (buildAddrAt s.cfg off)) ∧
    (∀ i, i < s.cfg.ttEntries → (beginEffect s).entryAt .periodTbl i = some (periodEntry s.cfg i) ∧
      (beginEffect s).entryAt .compareTbl i = some (compareEntry s.cfg (c0Of s.cfg s.bright) i)) ∧
    (∀ a off, off < s.cfg.bsBytes → (beginEffect s).byteAt (Region.bs a) off = some (encodeAt s.cfg blackGrid off)) := by
  obtain ⟨hwL, haddrL, hc0⟩ := beginLatched_spec hc hw hb
  have hle : (beginLatched s).c0.toNat ≤ s.cfg.tUnit := hc0 ▸ c0Of_le hb
  obtain ⟨hwT, hper, hcmp, hframeT⟩ := buildTimingTable_spec (s := beginLatched s) hc hwL hle
  obtain ⟨hwB, hbs, hframeB, hentryB⟩ := blankBuffers_spec (s := buildTimingTable (beginLatched s)) hc hwT
  have hmem : (beginEffect s).mem = (blankBuffers (buildTimingTable (beginLatched s))).mem := rfl
  have hbyte := byteAt_congr hmem
  have hentry := entryAt_congr hmem rfl
  refine ⟨memoryWf_congr hmem rfl hwB, fun off ho => ?addr, fun i hi => ⟨?period, ?compare⟩, fun a off ho => ?buffer⟩
  case addr =>
    rw [hbyte, hframeB _ _ addrTbl_ne_bs, hframeT _ _ (by decide) (by decide), haddrL off ho]
  case period =>
    rw [hentry, hentryB _ _ periodTbl_ne_bs, hper i hi, beginLatched_cfg]
  case compare =>
    rw [hentry, hentryB _ _ compareTbl_ne_bs, hcmp i hi, beginLatched_cfg, hc0]
  case buffer => rw [hbyte, hbs a off ho, buildTimingTable_cfg, beginLatched_cfg]

/-! ### The record of all that BEGIN writes -/

/-- The buffers and the timing tables are regions. -/
theorem blankBuffers_frame (s : State) : blankBuffers s = { s with mem := (blankBuffers s).mem } := rfl

theorem buildTimingTable_frame (s : State) : buildTimingTable s = { s with mem := (buildTimingTable s).mem } := rfl

theorem beginLatched_frame (s : State) :
    beginLatched s = { s with
      runState := .idle
      mem := (beginLatched s).mem
      c0 := truncEntry s.cfg (c0Of s.cfg s.bright) } := rfl

theorem beginEffect_frame (s : State) :
    beginEffect s = { s with
      mem := (beginEffect s).mem
      c0 := truncEntry s.cfg (c0Of s.cfg s.bright)
      desc := programmed s.cfg
      active := false
      swapPending := false
      irqPending := false
      sf := 0
      phase := .a
      idx := 0
      runState := .running
      respErr := 0#8
      respVal := 0#32
      hostPos := .none
      trace := s.trace ++ [.resp 0#8 0#32] } := by
  rw [beginEffect_eq, blankBuffers_frame, buildTimingTable_frame, beginLatched_frame]
  rfl

@[simp] theorem beginEffect_cfg (s : State) : (beginEffect s).cfg = s.cfg := by rw [beginEffect_frame]

theorem beginEffect_c0 {s : State} (hc : s.cfg.Ok) (hb : isBrightness s.bright = true) :
    (beginEffect s).c0.toNat = c0Of s.cfg s.bright := by
  rw [beginEffect_frame, truncEntry_c0Of hc hb, c0_toNat_of_ofNat hc hb]

theorem exec_beginCmd_of_ok {s : State} (hc : s.cfg.Ok) : exec .beginCmd s = .next (beginEffect s) := if_pos hc

/-- Settles O33: what the builders leave, and the record of every field BEGIN writes, whose C0 needs no cut to TW bits. -/
theorem beginBuildsBlanksAndArms : Obligations.BeginBuildsBlanksAndArms := by
  intro s hc hw hb
  obtain ⟨hwf, haddr, hentries, hbuffers⟩ := beginEffect_spec hc hw hb
  refine ⟨_, exec_beginCmd_of_ok hc, hwf, haddr, hentries, fun a off ho => ?blank, rfl, ?record⟩
  case blank => rw [hbuffers a off ho, encodeAt_black]
  case record =>
    rw [← truncEntry_c0Of hc hb]
    exact beginEffect_frame s

end Sys2Proof.Machine
end

section
/-! PROOFS. The steps of the two multi-step commands, each with all it changes: SHOW's three (R155) and SETBRI's clamp step and
entry writes (R186). -/

namespace Sys2Proof.Machine

/-! ### Which step a multi-step command takes (R39) -/

theorem exec_showCmd_at_none {s : State} (hc : s.cfg.Ok) (hp : s.hostPos = .none) :
    exec .showCmd s = .next (showRetract s) := by simp only [exec, execShow, hp, if_pos hc]

theorem exec_showCmd_at_show1 {s : State} (hc : s.cfg.Ok) (hp : s.hostPos = .show1) :
    exec .showCmd s = .next (showEncode s) := by simp only [exec, execShow, hp, if_pos hc]

theorem exec_showCmd_at_show2 {s : State} (hc : s.cfg.Ok) (hp : s.hostPos = .show2) :
    exec .showCmd s = .next (showCommit s) := by simp only [exec, execShow, hp, if_pos hc]

theorem exec_setbri_at_none {s : State} (hc : s.cfg.Ok) (hp : s.hostPos = .none) (f : Word32) :
    exec (.setbri f) s = .next (briClamp f s) := by simp only [exec, execSetbri, hp, if_pos hc]

theorem exec_setbri_at_bri {s : State} {i : Nat} (hc : s.cfg.Ok) (hp : s.hostPos = .bri i) (f : Word32) :
    exec (.setbri f) s = briWrite i s := by simp only [exec, execSetbri, hp, if_pos hc]

/-! ### SHOW -/

/-- What is read after S2: the target holds Encode(GRID), and nothing else has changed (R155). -/
theorem showEncode_spec {s : State} (hc : s.cfg.Ok) (hw : MemoryWf s) :
    MemoryWf (showEncode s) ∧ ∀ reg off, (showEncode s).byteAt reg off =
      if reg = Region.bs s.encTarget ∧ off < s.cfg.bsBytes then some (encodeAt s.cfg (gridOf s.mem.grid) off)
      else s.byteAt reg off := by
  obtain ⟨hwf, hin, hbeyond, hother, -⟩ := encodeInto_spec (a := s.encTarget) (g := gridOf s.mem.grid) hc hw
  have hmem : (showEncode s).mem = (encodeInto s.encTarget (gridOf s.mem.grid) s).mem := rfl
  refine ⟨memoryWf_congr hmem rfl hwf, fun reg off => ?bytes⟩
  case bytes =>
    rw [byteAt_congr hmem]
    by_cases hreg : reg = Region.bs s.encTarget
    · subst hreg
      rcases Nat.lt_or_ge off s.cfg.bsBytes with hoff | hoff
      · rw [hin off hoff, if_pos ⟨rfl, hoff⟩]
      · obtain ⟨-, hbs, -⟩ := regionBytes_ok hc
        have hsize : regionBytes s.cfg (Region.bs s.encTarget) ≤ off := (hbs _).trans_le hoff
        have hunlisted : s.byteAt (Region.bs s.encTarget) off = none :=
          (read_beyond (hw _) hsize).trans (bs_unlisted _)
        rw [hbeyond off hoff, if_neg (by omega), hunlisted]
    · rw [hother reg off hreg, if_neg (fun h => hreg h.1)]

/-- Settles O22: each step's record, and for S2 what is read after it. -/
theorem showRunsInThreeSteps : Obligations.ShowRunsInThreeSteps := by
  refine fun s hc hw => ⟨fun hp => ?retract, fun hp => ?encode, fun hp => ?commit⟩
  case retract => exact exec_showCmd_at_none hc hp
  case encode =>
    obtain ⟨hwf, hbytes⟩ := showEncode_spec hc hw
    exact ⟨_, exec_showCmd_at_show1 hc hp, rfl, hwf, hbytes⟩
  case commit => exact ⟨_, exec_showCmd_at_show2 hc hp, rfl⟩

/-! ### SETBRI's clamp step -/

theorem briClamp_eq {s : State} (hc : s.cfg.Ok) (f : Word32) :
    briClamp f s = { s with bright := clamp f, c0 := BitVec.ofNat 32 (c0Of s.cfg (clamp f)), hostPos := .bri 0 } := by
  rw [← truncEntry_c0Of hc (clamp_isBrightness f)]
  rfl

/-! ### SETBRI's entry writes -/

/-- The regions after write W(i), and nothing else changed yet. -/
def briWritten (i : Nat) (s : State) : State :=
  s.setRegion (briRegion i) (Memory.storeLE (briRegion i).unlisted (s.mem.get (briRegion i)) (i / 2 * s.cfg.entryBytes)
    s.cfg.entryBytes (truncEntry s.cfg (briValue s.cfg s.c0.toNat i)).toNat)

@[simp] theorem briWritten_cfg (i : Nat) (s : State) : (briWritten i s).cfg = s.cfg := rfl

theorem briRegion_eq_or (i : Nat) : briRegion i = .periodTbl ∨ briRegion i = .compareTbl := by
  unfold briRegion
  split
  · exact .inl rfl
  · exact .inr rfl

theorem writeEntry_briRegion {s : State} {i : Nat} (hc : s.cfg.Ok) (hi : i < 2 * s.cfg.ttEntries) :
    writeEntry (briRegion i) (i / 2) (briValue s.cfg s.c0.toNat i) s = .ok (briWritten i s) := by
  obtain ⟨t, ht⟩ := writeEntry_defined (i := i / 2) (v := briValue s.cfg s.c0.toNat i) hc (by omega) (briRegion_eq_or i)
  obtain ⟨-, rfl⟩ := writeEntry_ok.1 ht
  exact ht

theorem briWrite_of_lt {s : State} {i : Nat} (hc : s.cfg.Ok) (hi : i < 2 * s.cfg.ttEntries) :
    briWrite i s = .next (briAdvance i (briWritten i s)) := by
  rw [briWrite, if_pos hi, writeEntry_briRegion hc hi, attempt_ok]

/-- The value of a write fits its entry: of a period always, of a compare with C0 at most T_UNIT (R9, R184). -/
theorem briValue_lt {c : Config} {c0 i : Nat} (hc : c.Ok) (h0 : i % 2 = 1 → c0 ≤ c.tUnit) : briValue c c0 i < 2 ^ c.tw := by
  unfold briValue
  split
  · exact periodEntry_lt hc _
  · exact (compareEntry_le (h0 (by omega)) _).trans_lt (periodEntry_lt hc _)

/-- What is read after write W(i): its entry whole, every other entry and every byte outside it as before. -/
theorem briWritten_spec {s : State} {i : Nat} (hc : s.cfg.Ok) (hw : MemoryWf s) (hi : i < 2 * s.cfg.ttEntries)
    (h0 : i % 2 = 1 → s.c0.toNat ≤ s.cfg.tUnit) :
    MemoryWf (briWritten i s) ∧
    (briWritten i s).entryAt (briRegion i) (i / 2) = some (briValue s.cfg s.c0.toNat i) ∧
    (∀ r j, r ≠ briRegion i ∨ j ≠ i / 2 → (briWritten i s).entryAt r j = s.entryAt r j) ∧
    (∀ r off, (r ≠ briRegion i ∨ off < i / 2 * s.cfg.entryBytes ∨ (i / 2 + 1) * s.cfg.entryBytes ≤ off) →
      (briWritten i s).byteAt r off = s.byteAt r off) := by
  obtain ⟨hwf, hentry, hentries, hbytes, hregions, hbytesIn⟩ := writeEntry_spec (writeEntry_briRegion hc hi) hw (tw_le hc)
  refine ⟨hwf, ?entry, fun r j h => ?entries, fun r off h => ?bytes⟩
  case entry => rw [hentry, Nat.mod_eq_of_lt (briValue_lt hc h0)]
  case entries =>
    by_cases hr : r = briRegion i
    · exact hr ▸ hentries j (h.resolve_left fun hne => hne hr)
    · exact hregions r j hr
  case bytes =>
    by_cases hr : r = briRegion i
    · exact hr ▸ hbytesIn off (h.resolve_left fun hne => hne hr)
    · exact hbytes r off hr

theorem briAdvance_of_last {i : Nat} {s : State} (h : i + 1 = 2 * s.cfg.ttEntries) :
    briAdvance i s = respond 0#8 0#32 s := if_pos h

theorem briAdvance_of_more {i : Nat} {s : State} (h : i + 1 ≠ 2 * s.cfg.ttEntries) :
    briAdvance i s = { s with hostPos := .bri (i + 1) } := if_neg h

/-! ### Even writes are periods, odd ones compare values -/

theorem even_write (c : Config) (c0 e : Nat) :
    briRegion (2 * e) = .periodTbl ∧ 2 * e / 2 = e ∧ briValue c c0 (2 * e) = c.tUnit * 2 ^ (e % c.bitDepth) := by
  have hdiv : 2 * e / 2 = e := by omega
  have hmod : 2 * e % 2 = 0 := by omega
  exact ⟨if_pos hmod, hdiv, by rw [briValue, if_pos hmod, hdiv]; rfl⟩

theorem odd_write (c : Config) (c0 e : Nat) :
    briRegion (2 * e + 1) = .compareTbl ∧ (2 * e + 1) / 2 = e ∧
    briValue c c0 (2 * e + 1) = c0 * 2 ^ (e % c.bitDepth) := by
  have hdiv : (2 * e + 1) / 2 = e := by omega
  have hmod : (2 * e + 1) % 2 ≠ 0 := by omega
  exact ⟨if_neg hmod, hdiv, by rw [briValue, if_neg hmod, hdiv]; rfl⟩

/-- Settles O30: the clamp step's record, and each write's entry with HOSTPOS or the response behind it. -/
theorem setbriRunsEntryByEntry : Obligations.SetbriRunsEntryByEntry := by
  intro s f hc hw
  refine ⟨fun hp => ?clamp, fun e he => ⟨fun hp => ?period, fun hp h0 => ?compare⟩⟩
  case clamp => rw [exec_setbri_at_none hc hp, briClamp_eq hc]
  case period =>
    have hi : 2 * e < 2 * s.cfg.ttEntries := by omega
    have hmore : 2 * e + 1 ≠ 2 * (briWritten (2 * e) s).cfg.ttEntries := by rw [briWritten_cfg]; omega
    obtain ⟨hwf, hentry, hentries, hbytes⟩ := briWritten_spec hc hw hi (by omega)
    obtain ⟨hreg, hdiv, hval⟩ := even_write s.cfg s.c0.toNat e
    rw [hreg, hdiv] at hentry hentries hbytes
    have hexec : exec (.setbri f) s = .next { briWritten (2 * e) s with hostPos := .bri (2 * e + 1) } := by
      rw [exec_setbri_at_bri hc hp, briWrite_of_lt hc hi, briAdvance_of_more hmore]
    exact ⟨_, hexec, hwf, rfl, hentry.trans (congrArg some hval), fun j hj => hentries _ j (.inr hj),
      fun reg off h => hbytes reg off h⟩
  case compare =>
    have hi : 2 * e + 1 < 2 * s.cfg.ttEntries := by omega
    obtain ⟨hwf, hentry, hentries, hbytes⟩ := briWritten_spec hc hw hi fun _ => h0
    obtain ⟨hreg, hdiv, hval⟩ := odd_write s.cfg s.c0.toNat e
    rw [hreg, hdiv] at hentry hentries hbytes
    have hexec : exec (.setbri f) s = .next (briAdvance (2 * e + 1) (briWritten (2 * e + 1) s)) := by
      rw [exec_setbri_at_bri hc hp, briWrite_of_lt hc hi]
    have hmem := briAdvance_mem (2 * e + 1) (briWritten (2 * e + 1) s)
    have hcfg := briAdvance_cfg (2 * e + 1) (briWritten (2 * e + 1) s)
    refine ⟨_, hexec, memoryWf_congr hmem hcfg hwf, ?_, fun j hj => ?_, fun reg off h => ?_, ?advance⟩
    · rw [entryAt_congr hmem hcfg, hentry, hval]
    · rw [entryAt_congr hmem hcfg, hentries _ j (.inr hj)]
    · rw [byteAt_congr hmem, hbytes reg off h]
    case advance =>
      split
      · next hlast =>
        rw [briAdvance_of_last (by rw [briWritten_cfg]; omega)]
        rfl
      · next hmore =>
        rw [briAdvance_of_more (by rw [briWritten_cfg]; omega)]
        rfl

end Sys2Proof.Machine
end

section
/-! PROOFS. Who may change what: what each agent's turn can be, said once, and the statements about the writers of each piece of
state read off it. -/

namespace Sys2Proof.Machine

/-! ### What a turn of each agent can be -/

/-- What a turn of the CHAIN can answer: the state as it was, new outputs in an underrun, or what the step of its phase leaves
(R201 to R206, R244). -/
inductive ChainAnswer (s : State) : State → Prop where
  | idle : ChainAnswer s s
  | lost : ChainAnswer s (loseOutputs s)
  | address (v : Byte) : ChainAnswer s (afterAddr (emit (.addr v) { s with addrPort := v }))
  | period (v : Word32) : ChainAnswer s (emit (.period v) { s with tmrPeriod := v, phase := .c })
  | compare (v : Word32) : ChainAnswer s (emit (.compare v) { s with tmrCompare := v, phase := .d, idx := 0 })
  | data (v : Byte) : ChainAnswer s (afterData (emit (.data v) { s with dataPort := v }))
  | advance (hw : s.phase = .w) : ChainAnswer s (stepADV s)

theorem chainMove_answer {s t : State} (e : chainMove s = .next t) : ChainAnswer s t := by
  unfold chainMove at e
  split at e
  case h_1 => obtain ⟨v, -, h⟩ := attempt_next.1 e; cases h; exact .address v
  case h_2 => obtain ⟨v, -, h⟩ := attempt_next.1 e; cases h; exact .period v
  case h_3 => obtain ⟨v, -, h⟩ := attempt_next.1 e; cases h; exact .compare v
  case h_4 => obtain ⟨v, -, h⟩ := attempt_next.1 e; cases h; exact .data v
  case h_5 hw => cases e; exact .advance hw

theorem chainTurn_answer {s t : State} (e : chainTurn s = .next t) : ChainAnswer s t := by
  unfold chainTurn at e
  split at e
  · split at e
    · cases e; exact .idle
    · exact chainMove_answer e
  · cases e; exact .lost
  · cases e; exact .idle
  · cases e; exact .idle

/-- What a turn of the CHAIN leaves alone, and the one event it may emit. -/
theorem chainTurn_frame {s t : State} (e : chainTurn s = .next t) :
    t.runState = s.runState ∧ t.active = s.active ∧ (s.phase ≠ .w → t.sf = s.sf) ∧
    (t.trace = s.trace ∨ ∃ ev, t.trace = s.trace ++ [ev]) := by
  cases chainTurn_answer e with
  | advance hw =>
    refine ⟨stepADV_runState s, stepADV_active s, fun hne => absurd hw hne, ?_⟩
    rw [stepADV_trace]
    split
    · exact .inr ⟨_, rfl⟩
    · exact .inl (List.append_nil _)
  | idle => simp
  | lost => simp
  | address v => simp
  | period v => simp
  | compare v => simp
  | data v => simp

/-- A turn of REFRESH: nothing, or the handler where it is enabled (R246). -/
theorem refreshTurn_cases {s t : State} (e : refreshTurn s = .next t) :
    t = s ∨ s.runState = .running ∧ s.irqPending = true ∧ t = refreshStep s := by
  unfold refreshTurn at e
  split at e
  · next hen =>
    cases e
    obtain ⟨hr, hirq⟩ : s.runState = .running ∧ s.irqPending = true := by simpa [refreshEnabled] using hen
    exact .inr ⟨hr, hirq, rfl⟩
  · cases e; exact .inl rfl

/-- A turn of ENV: nothing, or the strike from RUNNING (R244). -/
theorem envTurn_cases {s t : State} (e : envTurn s = .next t) :
    t = s ∨ s.runState = .running ∧ t = loseOutputs { s with runState := .underrunFault } := by
  unfold envTurn at e
  split at e
  case h_1 hr => cases e; exact .inr ⟨hr, rfl⟩
  all_goals cases e; exact .inl rfl

/-- A turn of the HOST: with c in CMD and p left of its program, which with a command in flight are those there were, nothing,
CMD_ERR, or a step of the command that c decodes to (R13, R130). -/
theorem hostTurn_cmd_cases {s t : State} (e : turn .host s = .next t) :
    ∃ c p, (s.hostPos ≠ .none → c = s.cmd) ∧
      (t = { s with cmd := c, prog := p } ∨
       t = raise .cmdErr { s with cmd := c, prog := p } ∧ (∃ err, decode c = .error err) ∨
       ∃ i, decode c = .ok i ∧ exec i { s with cmd := c, prog := p } = .next t) := by
  have hrun {c p} (hrun : runCommand { s with cmd := c, prog := p } = .next t) :
      t = raise .cmdErr { s with cmd := c, prog := p } ∧ (∃ err, decode c = .error err) ∨
      ∃ i, decode c = .ok i ∧ exec i { s with cmd := c, prog := p } = .next t := by
    unfold runCommand at hrun
    split at hrun
    · next i hi => exact .inr ⟨i, hi, hrun⟩
    · next err herr => cases hrun; exact .inl ⟨rfl, err, herr⟩
  rcases hostTurn_cases e with rfl | ⟨s1, ⟨rfl, -⟩ | ⟨w, ws, rfl, hp⟩, h⟩
  · exact ⟨_, _, fun _ => rfl, .inl rfl⟩
  · exact ⟨_, _, fun _ => rfl, .inr (hrun h)⟩
  · exact ⟨w, ws, fun hne => absurd hp hne, .inr (hrun h)⟩

/-- What neither issuing a word nor CMD_ERR's response changes, a HOST turn changes only as a step of the command then in CMD. -/
theorem hostTurn_changes {s t : State} {α : Type} (f : State → α) (e : turn .host s = .next t) (hne : f t ≠ f s)
    (hissue : ∀ c p, f { s with cmd := c, prog := p } = f s)
    (hraise : ∀ c p, f (raise .cmdErr { s with cmd := c, prog := p }) = f s) :
    ∃ c p i, (s.hostPos ≠ .none → c = s.cmd) ∧ t.cmd = c ∧ decode c = .ok i ∧
      exec i { s with cmd := c, prog := p } = .next t := by
  obtain ⟨c, p, hkeep, rfl | ⟨rfl, -⟩ | ⟨i, hi, hexec⟩⟩ := hostTurn_cmd_cases e
  · exact absurd (hissue c p) hne
  · exact absurd (hraise c p) hne
  · obtain ⟨-, hcmd, -⟩ := exec_frame hexec
    exact ⟨c, p, i, hkeep, hcmd, hi, hexec⟩

/-! ### What a step of the commands with several outcomes can be -/

theorem exec_beginCmd_cases {s t : State} (e : exec .beginCmd s = .next t) :
    s.cfg.Ok ∧ t = beginEffect s ∨ ¬ s.cfg.Ok ∧ t = beginRefusal s := by
  by_cases hc : s.cfg.Ok
  · rw [exec_beginCmd_of_ok hc] at e; cases e; exact .inl ⟨hc, rfl⟩
  · rw [exec_beginCmd_of_not_ok hc] at e; cases e; exact .inr ⟨hc, rfl⟩

/-- A step of SHOW is S2 or S3 at its place, and S1 anywhere else (R155, R156). -/
theorem exec_showCmd_cases {s t : State} (e : exec .showCmd s = .next t) :
    s.cfg.Ok ∧ (s.hostPos = .show1 ∧ t = showEncode s ∨ s.hostPos = .show2 ∧ t = showCommit s ∨ t = showRetract s) := by
  simp only [exec, execShow] at e
  split at e
  · next hc =>
    split at e
    case h_1 hp => cases e; exact ⟨hc, .inl ⟨hp, rfl⟩⟩
    case h_2 hp => cases e; exact ⟨hc, .inr (.inl ⟨hp, rfl⟩)⟩
    all_goals cases e; exact ⟨hc, .inr (.inr rfl)⟩
  · cases e

/-- A step of SETBRI is write W(i) at BRI(i), or nothing but the response past the last write, and T0 anywhere else (R186). -/
theorem exec_setbri_cases {f : Word32} {s t : State} (e : exec (.setbri f) s = .next t) :
    s.cfg.Ok ∧
    ((∃ i, s.hostPos = .bri i ∧ i < 2 * s.cfg.ttEntries ∧ t = briAdvance i (briWritten i s)) ∨
      (∃ i, s.hostPos = .bri i ∧ 2 * s.cfg.ttEntries ≤ i ∧ t = respond 0#8 0#32 s) ∨
      t = briClamp f s) := by
  simp only [exec, execSetbri] at e
  split at e
  · next hc =>
    split at e
    case h_1 i hp =>
      by_cases hi : i < 2 * s.cfg.ttEntries
      · rw [briWrite_of_lt hc hi] at e; cases e; exact ⟨hc, .inl ⟨i, hp, hi, rfl⟩⟩
      · rw [briWrite, if_neg hi] at e; cases e; exact ⟨hc, .inr (.inl ⟨i, hp, Nat.le_of_not_lt hi, rfl⟩)⟩
    all_goals cases e; exact ⟨hc, .inr (.inr rfl)⟩
  · cases e

/-! ### swap_pending and BRIGHT -/

/-- Only SHOW's last step raises swap_pending (R25). -/
theorem exec_raises_swapPending {i : Instr} {s t : State} (e : exec i s = .next t) (hs : s.swapPending = false)
    (ht : t.swapPending = true) : i = .showCmd ∧ s.hostPos = .show2 := by
  obtain ⟨-, -, -, -, -, -, hframe, -⟩ := exec_frame e
  by_cases hshow : i = .showCmd
  · subst hshow
    obtain ⟨-, ⟨-, rfl⟩ | ⟨hp, -⟩ | rfl⟩ := exec_showCmd_cases e
    · exact absurd (hs.symm.trans ht) Bool.false_ne_true
    · exact ⟨rfl, hp⟩
    · cases ht
  · by_cases hbegin : i = .beginCmd
    · subst hbegin
      obtain ⟨-, rfl⟩ | ⟨-, rfl⟩ := exec_beginCmd_cases e
      · cases ht
      · exact absurd (hs.symm.trans ht) Bool.false_ne_true
    · obtain ⟨hswap, -⟩ := hframe hshow hbegin
      exact absurd (hs.symm.trans (hswap.symm.trans ht)) Bool.false_ne_true

/-- Settles O14: the answer is the flag; no other agent raises it, and of the commands only SHOW at its third step. -/
theorem bufwaitAnswersSwapPending : Obligations.BufwaitAnswersSwapPending := by
  refine ⟨fun s => ⟨_, rfl, rfl⟩, fun s t a e hs ht => ?raised⟩
  case raised =>
    by_cases ha : a = .host
    · subst ha
      obtain ⟨c, p, i, hkeep, -, hi, hexec⟩ :=
        hostTurn_changes State.swapPending e (by rw [hs, ht]; decide) (fun _ _ => rfl) (fun _ _ => rfl)
      obtain ⟨rfl, hp⟩ := exec_raises_swapPending hexec hs ht
      have hp' : s.hostPos = .show2 := hp
      rw [hkeep (by rw [hp']; decide)] at hi
      exact ⟨rfl, hp', hi⟩
    · obtain ⟨-, -, -, -, -, -, -, -, -, -, -, hswap, -⟩ := turn_frame_of_not_host ha e
      exact absurd (hs.symm.trans (hswap ht)) Bool.false_ne_true

/-- A command's step leaves BRIGHT, or is SETBRI's clamp step (R29, R186). -/
theorem exec_bright {i : Instr} {s t : State} (e : exec i s = .next t) :
    t.bright = s.bright ∨ ∃ f, i = .setbri f ∧ t.bright = clamp f := by
  obtain ⟨-, -, -, -, -, hframe, -⟩ := exec_frame e
  by_cases hbri : ∃ f, i = .setbri f
  · obtain ⟨f, rfl⟩ := hbri
    obtain ⟨-, ⟨j, -, -, rfl⟩ | ⟨j, -, -, rfl⟩ | rfl⟩ := exec_setbri_cases e
    · exact .inl (briAdvance_bright j _)
    · exact .inl rfl
    · exact .inr ⟨f, rfl, rfl⟩
  · obtain ⟨hbright, -⟩ := hframe fun f h => hbri ⟨f, h⟩
    exact .inl hbright

/-- Settles O15: the answer is the register, which of all turns only the HOST's changes, by SETBRI's clamp step. -/
theorem getbriAnswersTheClampedValue : Obligations.GetbriAnswersTheClampedValue := by
  refine ⟨fun s => ⟨_, rfl, rfl⟩, fun s t i e => exec_bright e, fun s t a e hne => ?turns⟩
  case turns =>
    by_cases ha : a = .host
    · subst ha
      obtain ⟨c, p, i, -, hcmd, hi, hexec⟩ := hostTurn_changes State.bright e hne (fun _ _ => rfl) (fun _ _ => rfl)
      obtain ⟨f, rfl, hf⟩ := (exec_bright hexec).resolve_left hne
      exact ⟨rfl, f, hcmd ▸ hi, hf⟩
    · obtain ⟨-, -, hbright, -⟩ := turn_frame_of_not_host ha e
      exact absurd hbright hne

/-! ### RUNSTATE, the scan position and ACTIVE -/

/-- What a HOST turn leaves alone unless it is a BEGIN's (R24, R26, R28). -/
theorem hostTurn_begin_of_changes {s t : State} {α : Type} (f : State → α) (e : turn .host s = .next t) (hne : f t ≠ f s)
    (hissue : ∀ c p, f { s with cmd := c, prog := p } = f s)
    (hraise : ∀ c p, f (raise .cmdErr { s with cmd := c, prog := p }) = f s)
    (hframe : ∀ i s', exec i s' = .next t → i ≠ .beginCmd → f t = f s') :
    decode t.cmd = .ok .beginCmd ∧ ∃ c p, exec .beginCmd { s with cmd := c, prog := p } = .next t := by
  obtain ⟨c, p, i, -, hcmd, hi, hexec⟩ := hostTurn_changes f e hne hissue hraise
  by_cases hbegin : i = .beginCmd
  · subst hbegin
    exact ⟨hcmd ▸ hi, c, p, hexec⟩
  · exact absurd ((hframe i _ hexec hbegin).trans (hissue c p)) hne

/-- Settles O47: the chain and the handler leave RUNSTATE, the strike starts from RUNNING, and BEGIN decides on CFG_OK. -/
theorem runStateChangesAsTabled : Obligations.RunStateChangesAsTabled := by
  intro s t a e hne
  cases a with
  | host =>
    have hframe (i : Instr) (s' : State) (h : exec i s' = .next t) (hi : i ≠ .beginCmd) : t.runState = s'.runState := by
      obtain ⟨-, -, -, -, hstay, -⟩ := exec_frame h
      exact (hstay hi).1
    obtain ⟨hcmd, c, p, hexec⟩ :=
      hostTurn_begin_of_changes State.runState e hne (fun _ _ => rfl) (fun _ _ => rfl) hframe
    obtain ⟨hc, rfl⟩ | ⟨hc, rfl⟩ := exec_beginCmd_cases hexec
    · exact .inr (.inl ⟨rfl, hcmd, rfl, hc⟩)
    · exact .inr (.inr ⟨rfl, hcmd, rfl, hc⟩)
  | chain =>
    obtain ⟨hrun, -⟩ := chainTurn_frame e
    exact absurd hrun hne
  | refresh =>
    obtain rfl | ⟨-, -, rfl⟩ := refreshTurn_cases e
    · exact absurd rfl hne
    · exact absurd (swapIfPending_runState s) hne
  | env =>
    obtain rfl | ⟨hr, rfl⟩ := envTurn_cases e
    · exact absurd rfl hne
    · exact .inl ⟨rfl, hr, rfl⟩

/-- The handler moves ACTIVE with a swap pending alone, and the scan position never (R246). -/
theorem refreshStep_frame (s : State) :
    (refreshStep s).sf = s.sf ∧ (refreshStep s).phase = s.phase ∧ (refreshStep s).idx = s.idx ∧
    ((refreshStep s).active ≠ s.active → s.swapPending = true) := by
  refine ⟨swapIfPending_sf s, swapIfPending_phase s, swapIfPending_idx s, fun hne => ?_⟩
  by_contra hswap
  exact hne ((swapIfPending_active s).trans (by rw [eq_false_of_ne_true hswap, Bool.xor_false]))

/-- Settles O48: agent by agent, and for the HOST command by command. -/
theorem scanPositionAndActiveHaveFewWriters : Obligations.ScanPositionAndActiveHaveFewWriters := by
  intro s t a e
  cases a with
  | host =>
    have hframe (i : Instr) (s' : State) (h : exec i s' = .next t) (hi : i ≠ .beginCmd) :
        (t.sf, t.phase, t.idx, t.active) = (s'.sf, s'.phase, s'.idx, s'.active) := by
      obtain ⟨-, -, -, -, hstay, -⟩ := exec_frame h
      obtain ⟨-, hsf, hphase, hidx, hactive, -⟩ := hstay hi
      rw [hsf, hphase, hidx, hactive]
    have hbegin (hne : (t.sf, t.phase, t.idx, t.active) ≠ (s.sf, s.phase, s.idx, s.active)) : decode t.cmd = .ok .beginCmd :=
      (hostTurn_begin_of_changes (fun u => (u.sf, u.phase, u.idx, u.active)) e hne (fun _ _ => rfl) (fun _ _ => rfl) hframe).1
    simp only [ne_eq, Prod.mk.injEq] at hbegin
    exact ⟨fun hne => .inr ⟨rfl, hbegin (by tauto)⟩, fun hne => .inr ⟨rfl, hbegin (by tauto)⟩,
      fun hne => .inr ⟨rfl, hbegin (by tauto)⟩⟩
  | chain =>
    obtain ⟨-, hactive, hsf, -⟩ := chainTurn_frame e
    exact ⟨fun hne => .inl ⟨rfl, by_contra fun hw => hne (hsf hw)⟩, fun _ => .inl rfl, fun hne => absurd hactive hne⟩
  | refresh =>
    obtain rfl | ⟨-, hirq, rfl⟩ := refreshTurn_cases e
    · simp
    · obtain ⟨hsf, hphase, hidx, hactive⟩ := refreshStep_frame s
      exact ⟨fun hne => absurd hsf hne, fun hne => (hne.elim (absurd hphase) (absurd hidx)),
        fun hne => .inl ⟨rfl, hactive hne, hirq⟩⟩
  | env =>
    obtain rfl | ⟨-, rfl⟩ := envTurn_cases e
    · simp
    · simp

/-! ### The regions, the configuration and the trace -/

/-- GRID is written by the three commands that set pixels or bytes of it (R69). -/
theorem exec_grid {i : Instr} {s t : State} (e : exec i s = .next t) :
    t.mem.grid = s.mem.grid ∨ ∃ col row r g b off v pix,
      i = .setpix col row r g b ∨ i = .setpixp col row pix ∨ i = .stg off v := by
  cases i with
  | setpix col row r g b => exact .inr ⟨col, row, r, g, b, 0, 0, 0, .inl rfl⟩
  | setpixp col row pix => exact .inr ⟨col, row, 0, 0, 0, 0, 0, pix, .inr (.inl rfl)⟩
  | stg off v => exact .inr ⟨0, 0, 0, 0, 0, off, v, 0, .inr (.inr rfl)⟩
  | beginCmd => obtain ⟨-, rfl⟩ | ⟨-, rfl⟩ := exec_beginCmd_cases e <;> exact .inl rfl
  | showCmd =>
    obtain ⟨-, ⟨-, rfl⟩ | ⟨-, rfl⟩ | rfl⟩ := exec_showCmd_cases e
    · exact .inl (get_set_other s.mem _ .grid _ (grid_ne_bs s.encTarget))
    · exact .inl rfl
    · exact .inl rfl
  | setbri f =>
    obtain ⟨-, ⟨j, -, -, rfl⟩ | ⟨j, -, -, rfl⟩ | rfl⟩ := exec_setbri_cases e
    · have hgrid : Region.grid ≠ briRegion j := by rcases briRegion_eq_or j with h | h <;> rw [h] <;> decide
      rw [briAdvance_mem]
      exact .inl (get_set_other s.mem _ .grid _ hgrid)
    · exact .inl rfl
    · exact .inl rfl
  | ldg off =>
    simp only [exec, execLdg] at e
    split at e
    · obtain ⟨v, -, h⟩ := attempt_next.1 e; cases h; exact .inl rfl
    · cases e; exact .inl rfl
  | getpix => cases e; exact .inl rfl
  | bufwait => cases e; exact .inl rfl
  | getbri => cases e; exact .inl rfl

/-- Settles O49: the other agents write no region; of the commands, each region's writers by their frames. -/
theorem regionsHaveTheirWriters : Obligations.RegionsHaveTheirWriters := by
  refine ⟨fun s t a e ha => (turn_frame_of_not_host ha e).1, fun s t i e => ⟨exec_grid e, ?addr, ?timing, ?buffers⟩⟩
  case addr =>
    obtain ⟨-, -, -, -, hframe, -⟩ := exec_frame e
    by_cases hbegin : i = .beginCmd
    · exact .inr hbegin
    · obtain ⟨-, -, -, -, -, -, -, haddr⟩ := hframe hbegin
      exact .inl haddr
  case timing =>
    obtain ⟨-, -, -, -, -, hframe, -⟩ := exec_frame e
    by_cases hbegin : i = .beginCmd
    · exact .inr (.inl hbegin)
    · by_cases hbri : ∃ f, i = .setbri f
      · exact .inr (.inr hbri)
      · obtain ⟨-, htables⟩ := hframe fun f h => hbri ⟨f, h⟩
        exact .inl (htables hbegin).2
  case buffers =>
    obtain ⟨-, -, -, -, -, -, hframe, -⟩ := exec_frame e
    by_cases hbegin : i = .beginCmd
    · exact .inr (.inl hbegin)
    · by_cases hshow : i = .showCmd
      · exact .inr (.inr hshow)
      · obtain ⟨-, -, hbs⟩ := hframe hshow hbegin
        exact .inl hbs

/-- Settles O24: SHOW's encode step writes its target, which the invariant holds at the back buffer; no other step but BEGIN's
writes a buffer. -/
theorem activeBufferIsNeverWritten : Obligations.ActiveBufferIsNeverWritten := by
  intro s t i hinv e hbegin
  by_cases hshow : i = .showCmd
  · subst hshow
    obtain ⟨-, ⟨hp, rfl⟩ | ⟨-, rfl⟩ | rfl⟩ := exec_showCmd_cases e
    · obtain ⟨htarget, -⟩ := hinv.target (.inl hp)
      refine get_set_other s.mem _ _ _ ?_
      rw [htarget, ne_eq, bs_inj]
      exact (Bool.not_ne_self _).symm
    · rfl
    · rfl
  · obtain ⟨-, -, -, -, -, -, hframe, -⟩ := exec_frame e
    obtain ⟨-, -, hbs0, hbs1⟩ := hframe hshow hbegin
    cases s.active
    · exact hbs0
    · exact hbs1

/-- Settles O50: the parameters are in every frame, and a turn's events are counted agent by agent. -/
theorem eventsAreAppendedOneAtATime : Obligations.EventsAreAppendedOneAtATime := by
  intro s t a e
  cases a with
  | host =>
    obtain ⟨c, p, -, rfl | ⟨rfl, -⟩ | ⟨i, -, hexec⟩⟩ := hostTurn_cmd_cases e
    · exact ⟨rfl, .inl rfl⟩
    · exact ⟨rfl, .inr ⟨_, rfl⟩⟩
    · obtain ⟨hcfg, -, -, htrace, -⟩ := exec_frame hexec
      exact ⟨hcfg, htrace⟩
  | chain =>
    obtain ⟨-, hcfg, -⟩ := turn_frame_of_not_host (by decide) e
    obtain ⟨-, -, -, htrace⟩ := chainTurn_frame e
    exact ⟨hcfg, htrace⟩
  | refresh =>
    obtain rfl | ⟨-, -, rfl⟩ := refreshTurn_cases e
    · exact ⟨rfl, .inl rfl⟩
    · exact ⟨swapIfPending_cfg s, .inr ⟨_, congrArg (· ++ _) (swapIfPending_trace s)⟩⟩
  | env =>
    obtain rfl | ⟨-, rfl⟩ := envTurn_cases e
    · exact ⟨rfl, .inl rfl⟩
    · exact ⟨rfl, .inl rfl⟩

/-! ### Whose turn a step is (R12, R13) -/

theorem step_of_sched {s : State} {a : Agent} {rest : List Agent} (h : s.sched = a :: rest) :
    step s = turn a { s with sched := rest } := by
  simp only [step, takeTurn, h]

theorem step_of_no_sched {s : State} (h : s.sched = []) :
    step s = turn (Config.freeAgent s.drawn) { s with drawn := s.drawn + 1 } := by
  simp only [step, takeTurn, h]

/-- With a command in flight a HOST turn takes its next step (R39). -/
theorem hostTurn_of_inFlight {s : State} (h : s.hostPos ≠ .none) : hostTurn s = runCommand s := by
  unfold hostTurn
  split
  · next hp _ => exact absurd hp h
  · next hp _ => exact absurd hp h
  · rfl

theorem runCommand_of_decode {s : State} {i : Instr} (h : decode s.cmd = .ok i) : runCommand s = exec i s := by
  simp only [runCommand, h]

/-- Settles O1: the turn is taken first, then the agent's turn; the HOST's issues a word or goes on with the command in CMD. -/
theorem stepRunsTheDecodedCommand : Obligations.StepRunsTheDecodedCommand := by
  refine ⟨fun s rest i hsched _ => ⟨fun w ws hp hprog hdec => ?issued, fun hp hdec => ?inFlight⟩,
    fun s a rest hsched => step_of_sched hsched, fun s hsched => ⟨_, step_of_no_sched hsched⟩,
    fun s rest hsched hp hprog => ?idle⟩
  case issued =>
    rw [step_of_issue hsched hp hprog]
    exact runCommand_of_decode hdec
  case inFlight =>
    rw [step_of_sched hsched]
    exact (hostTurn_of_inFlight (s := { s with sched := rest }) hp).trans (runCommand_of_decode hdec)
  case idle =>
    rw [step_of_sched hsched]
    simp only [turn, hostTurn, hp, hprog]

end Sys2Proof.Machine
end

section
/-! PROOFS. More of the chain: the compare entry (R204), the hold (R207), the handler and the strike (R244, R246), the descriptors'
reading (R32, R208), and that no fetch is from GRID. -/

namespace Sys2Proof.Machine

/-! ### XC -/

theorem chainTurn_of_phase_c {s : State} (hr : s.runState = .running) (hp : s.phase = .c) : chainTurn s = stepXC s := by
  rw [chainTurn_of_not_held hr (hold_of_phase_ne (by rw [hp]; decide)), chainMove, hp]

/-- A timing table has the entry at the scan's position. -/
theorem ScanInRange.entry_fits {s : State} (h : ScanInRange s) (hc : s.cfg.Ok) {r : Region}
    (hr : r = .periodTbl ∨ r = .compareTbl) : (s.sf + 1) * s.cfg.entryBytes ≤ regionBytes s.cfg r := by
  obtain ⟨-, -, -, hper, hcmp⟩ := regionBytes_ok hc
  have hfit : (s.sf + 1) * s.cfg.entryBytes ≤ s.cfg.ttEntries * s.cfg.entryBytes :=
    Nat.mul_le_mul_right _ h.sf_lt_ttEntries
  rcases hr with rfl | rfl
  · exact hfit.trans_eq hper.symm
  · exact hfit.trans_eq hcmp.symm

/-- From PHASE C the turn drives what stands in compare entry SF (R204). -/
theorem chainTurn_of_compareEntry {s : State} {v : Nat} (hinv : Inv s) (hr : s.runState = .running) (hp : s.phase = .c)
    (hv : s.entryAt .compareTbl s.sf = some v) :
    chainTurn s = .next { s with
      tmrCompare := BitVec.ofNat 32 v
      trace := s.trace ++ [.compare (BitVec.ofNat 32 v)]
      phase := .d
      idx := 0 } := by
  have hfit := (hinv.armed hr).scan.entry_fits hinv.config (.inr rfl)
  rw [chainTurn_of_phase_c hr hp, stepXC, attempt_readEntry hfit hv]
  rfl

/-- Settles O37: the invariant holds every compare entry at or below its period. -/
theorem xcDrivesTheCompareEntry : Obligations.XcDrivesTheCompareEntry := by
  intro s hinv hr hp
  have harm := hinv.armed hr
  obtain ⟨v, hv, hle⟩ := harm.compares s.sf harm.scan.sf_lt_ttEntries
  exact ⟨v, hv, hle, chainTurn_of_compareEntry hinv hr hp hv⟩

/-! ### The hold, the handler and the strike -/

theorem hold_of_not_pending {s : State} (h : s.irqPending = false) : hold s = false := by
  simp [hold, h]

theorem chainTurn_of_held {s : State} (hr : s.runState = .running) (hh : hold s = true) : chainTurn s = .next s := by
  simp only [chainTurn, hr, hh, if_true]

theorem refreshTurn_of_enabled {s : State} (hr : s.runState = .running) (hirq : s.irqPending = true) :
    refreshTurn s = .next (refreshStep s) :=
  if_pos (by simp [refreshEnabled, hr, hirq])

/-- Settles O40: the interrupt is pending at the boundary alone, where the chain is held, and both steps clear it. -/
theorem holdUntilRefreshOrBegin : Obligations.HoldUntilRefreshOrBegin := by
  intro s hinv hr hirq
  refine ⟨chainTurn_of_held hr ((hinv.armed hr).irq hirq), ⟨_, refreshTurn_of_enabled hr hirq, ?_, rfl⟩,
    ⟨_, exec_beginCmd_of_ok hinv.config, ?_, rfl⟩⟩
  · exact hold_of_not_pending rfl
  · exact hold_of_not_pending rfl

/-- Settles O45: the handler's two branches, and the test that enables it. -/
theorem refreshSwapsIfPending : Obligations.RefreshSwapsIfPending := by
  refine fun s => ⟨fun ⟨hr, hirq⟩ => ⟨fun hswap => ?swap, fun hswap => ?noSwap⟩, fun hnot => ?idle⟩
  case swap =>
    have hstep : refreshStep s = ackIrq true (swapBuffers s) := by rw [refreshStep, swapIfPending, if_pos hswap, hswap]
    rw [refreshTurn_of_enabled hr hirq, hstep]
    rfl
  case noSwap =>
    have hstep : refreshStep s = ackIrq false s := by
      rw [refreshStep, swapIfPending, if_neg (ne_true_of_eq_false hswap), hswap]
    rw [refreshTurn_of_enabled hr hirq, hstep]
    rfl
  case idle => exact if_neg (by simpa [refreshEnabled] using hnot)

/-- Settles O46: the strike and the chain's turns in an underrun lose the outputs; every other turn named is not enabled. -/
theorem underrunStrikes : Obligations.UnderrunStrikes := by
  refine ⟨fun s hr => ⟨loseOutputs { s with runState := .underrunFault }, by simp only [envTurn, hr], rfl⟩, fun s hr => ?env,
    fun s hr => ?chain, fun s a hr ha => ?underrun⟩
  case env =>
    unfold envTurn
    split
    case h_1 h => exact absurd h hr
    all_goals rfl
  case chain => rcases hr with hr | hr <;> simp only [chainTurn, hr]
  case underrun =>
    cases a with
    | host => exact absurd rfl ha
    | chain => exact ⟨loseOutputs s, by simp only [turn, chainTurn, hr], rfl⟩
    | refresh => exact ⟨s, if_neg (by simp [refreshEnabled, hr]), rfl⟩
    | env => exact ⟨s, by simp only [turn, envTurn, hr], rfl⟩

/-! ### The descriptors' reading (R32, R208) -/

/-- Going on with the value a fetch gave under a function is going on after the function. -/
theorem attempt_map {α β : Type} (e : Except Fault α) (f : α → β) (k : β → Result) :
    attempt (e.map f) k = attempt e fun a => k (f a) := by
  cases e <;> rfl

/-- A unit of one byte is a byte read. -/
theorem readUnit_one (r : Region) (off : Nat) (s : State) : readUnit r off 1 s = (readByte r off s).map BitVec.toNat := by
  unfold readUnit readByte State.byteAt
  by_cases h : off < regionBytes s.cfg r
  · rw [if_pos h, if_pos (Nat.succ_le_of_lt h)]
    cases hb : Memory.read r.unlisted (s.mem.get r) off <;> simp [Memory.loadLE, hb, Except.map]
  · rw [if_neg h, if_neg (by omega)]
    rfl

/-- A unit of an entry's bytes at an entry's place is an entry read. -/
theorem readEntry_eq_map_readUnit (r : Region) (i : Nat) (s : State) :
    readEntry r i s = (readUnit r (i * s.cfg.entryBytes) s.cfg.entryBytes s).map (BitVec.ofNat 32) := by
  unfold readUnit readEntry State.entryAt
  rw [Nat.succ_mul]
  split
  · cases Memory.loadLE r.unlisted (s.mem.get r) (i * s.cfg.entryBytes) s.cfg.entryBytes <;> rfl
  · rfl

/-- The step of each phase of a RUNNING state, in that phase's descriptor's terms. -/
theorem transferUnit_addr {s : State} (hp : s.phase = .a) : stepXA s = transferUnit (programmed s.cfg).addr s := by
  simp only [stepXA, transferUnit, programmed, Nat.mul_one, readUnit_one, attempt_map]
  congr 1
  funext v
  simp only [afterAddr_eq, countUnit, drive, linkPhase, BitVec.ofNat_toNat, BitVec.setWidth_eq, emit, hp]
  split <;> simp

theorem transferUnit_period {s : State} (hi : s.idx = 0) : stepXP s = transferUnit (programmed s.cfg).period s := by
  simp only [stepXP, transferUnit, programmed, hi, Nat.mul_one, Nat.add_zero, readEntry_eq_map_readUnit, attempt_map]
  congr 1
  funext v
  simp [countUnit, drive, linkPhase, emit, hi]

theorem transferUnit_compare {s : State} (hi : s.idx = 0) : stepXC s = transferUnit (programmed s.cfg).compare s := by
  simp only [stepXC, transferUnit, programmed, hi, Nat.mul_one, Nat.add_zero, readEntry_eq_map_readUnit, attempt_map]
  congr 1
  funext v
  simp [countUnit, drive, linkPhase, emit, hi]

theorem transferUnit_data {s : State} (hp : s.phase = .d) :
    stepXD s = transferUnit { (programmed s.cfg).data with src := Region.bs s.active } s := by
  simp only [stepXD, transferUnit, programmed, Nat.mul_one, readUnit_one, attempt_map]
  congr 1
  funext v
  simp only [afterData_eq, countUnit, drive, linkPhase, BitVec.ofNat_toNat, BitVec.setWidth_eq, emit, hp]
  split <;> simp

/-- Settles O43: phase by phase, the unit moved and the link followed. -/
theorem chainFollowsItsDescriptors : Obligations.ChainFollowsItsDescriptors := by
  intro s hinv hr
  have harm := hinv.armed hr
  have hdesc : s.desc = _ := harm.descriptors
  obtain ⟨-, hidx⟩ := harm.scan
  rw [chainMove, descriptorMove, hdesc]
  cases hp : s.phase with
  | a => exact transferUnit_addr hp
  | p => rw [hp] at hidx; exact transferUnit_period hidx
  | c => rw [hp] at hidx; exact transferUnit_compare hidx
  | d => exact transferUnit_data hp
  | w => rfl

/-! ### No fetch is from GRID (R36 item 2) -/

/-- The outcome with GRID's contents replaced in its next state. -/
def carryGrid (m : Memory) (o : Result) : Result :=
  match o with
  | .next t => .next (t.setRegion .grid m)
  | .fault f => .fault f
  | .refused r => .refused r

theorem readByte_setRegion_other {r r' : Region} (h : r ≠ r') (m : Memory) (off : Nat) (s : State) :
    readByte r off (s.setRegion r' m) = readByte r off s := by
  simp only [readByte, State.byteAt, setRegion_cfg, setRegion_mem, get_set_other _ _ _ _ h]

theorem readEntry_setRegion_other {r r' : Region} (h : r ≠ r') (m : Memory) (i : Nat) (s : State) :
    readEntry r i (s.setRegion r' m) = readEntry r i s := by
  simp only [readEntry, State.entryAt, setRegion_cfg, setRegion_mem, get_set_other _ _ _ _ h]

theorem carryGrid_attempt {α : Type} (m : Memory) (e : Except Fault α) (k : α → State) :
    carryGrid m (attempt e fun a => .next (k a)) = attempt e fun a => .next ((k a).setRegion .grid m) := by
  cases e <;> rfl

/-- Counting a unit and advancing look at nothing of the regions. -/
theorem afterAddr_setRegion (r : Region) (m : Memory) (s : State) :
    afterAddr (s.setRegion r m) = (afterAddr s).setRegion r m := by
  rw [afterAddr_eq, afterAddr_eq]
  rfl

theorem afterData_setRegion (r : Region) (m : Memory) (s : State) :
    afterData (s.setRegion r m) = (afterData s).setRegion r m := by
  rw [afterData_eq, afterData_eq]
  rfl

theorem stepADV_setRegion (r : Region) (m : Memory) (s : State) : stepADV (s.setRegion r m) = (stepADV s).setRegion r m := by
  rw [stepADV_eq, stepADV_eq, setRegion_sf, setRegion_cfg]
  split <;> rfl

theorem chainMove_setRegion_grid (s : State) (m : Memory) :
    chainMove (s.setRegion .grid m) = carryGrid m (chainMove s) := by
  unfold chainMove
  rw [setRegion_phase]
  cases s.phase with
  | a =>
    simp only [stepXA, carryGrid_attempt, ← afterAddr_setRegion, setRegion_sf, setRegion_idx, setRegion_cfg,
      readByte_setRegion_other (by decide : Region.addrTbl ≠ .grid)]
    rfl
  | p =>
    simp only [stepXP, carryGrid_attempt, setRegion_sf, readEntry_setRegion_other (by decide : Region.periodTbl ≠ .grid)]
    rfl
  | c =>
    simp only [stepXC, carryGrid_attempt, setRegion_sf, readEntry_setRegion_other (by decide : Region.compareTbl ≠ .grid)]
    rfl
  | d =>
    simp only [stepXD, carryGrid_attempt, ← afterData_setRegion, setRegion_sf, setRegion_idx, setRegion_cfg, setRegion_active,
      readByte_setRegion_other (bs_ne_grid _)]
    rfl
  | w =>
    simp only [carryGrid, stepADV_setRegion]

/-- Settles O44: a held or idle chain keeps its state, an underrun loses the outputs, and no step's fetch sees GRID. -/
theorem chainNeverReadsTheGrid : Obligations.ChainNeverReadsTheGrid := by
  intro s m
  show chainTurn (s.setRegion .grid m) = carryGrid m (chainTurn s)
  have hhold : hold (s.setRegion .grid m) = hold s := rfl
  unfold chainTurn
  rw [setRegion_runState, hhold, chainMove_setRegion_grid]
  cases s.runState with
  | running =>
    dsimp only
    split <;> rfl
  | underrunFault => rfl
  | idle => rfl
  | cfgFault => rfl

end Sys2Proof.Machine
end

section
/-! PROOFS. The invariant under the turns of CHAIN, REFRESH and ENV (R36): they write no region, so what is left is the scan
position, the interrupt at the boundary, the descriptors and a SHOW's target. -/

namespace Sys2Proof.Machine

/-! ### The chain's step from a RUNNING state -/

/-- Off the hold no interrupt is pending (R207). -/
theorem Inv.irqPending_of_not_held {s : State} (h : Inv s) (hr : s.runState = .running) (hh : hold s = false) :
    s.irqPending = false := by
  by_contra hirq
  have hheld := (h.armed hr).irq (eq_true_of_ne_false hirq)
  exact Bool.false_ne_true (hh.symm.trans hheld)

/-- A step that moves the scan, the outputs and the trace keeps the invariant when the scan stays in range and the interrupt at
the boundary. -/
theorem Inv.scanMoved {s t : State} (h : Inv s) (hr : s.runState = .running)
    (ht : t = { s with
      sf := t.sf, phase := t.phase, idx := t.idx, irqPending := t.irqPending, trace := t.trace
      tmrPeriod := t.tmrPeriod, tmrCompare := t.tmrCompare, addrPort := t.addrPort, dataPort := t.dataPort })
    (hscan : ScanInRange t) (hirq : IrqOnlyAtBoundary t) : Inv t := by
  have hdesc : DescriptorsProgrammed t := by
    rw [ht]
    exact (h.armed hr).descriptors
  have htarget : ShowTargetsBack t := by
    rw [ht]
    exact h.target
  exact inv_of_same_memory h (by rw [ht]) (by rw [ht]) (by rw [ht]) (by rw [ht]) (by rw [ht]; exact fun _ hi => hi)
    htarget fun _ => ⟨hr, hscan, hirq, hdesc⟩

/-- After XA the scan is at the next address byte, or at the period. -/
theorem scanInRange_afterAddr {s : State} (h : ScanInRange s) (hp : s.phase = .a) : ScanInRange (afterAddr s) := by
  have hidx := h.idx_lt_addrRepeat hp
  rw [afterAddr_eq]
  refine ⟨h.1, ?_⟩
  by_cases hlast : s.idx + 1 = s.cfg.addrRepeat
  · simp only [hlast, if_true]
  · simp only [hlast, if_false, hp]
    omega

/-- After XD the scan is at the next data byte, or waits for the slot's end. -/
theorem scanInRange_afterData {s : State} (h : ScanInRange s) (hp : s.phase = .d) : ScanInRange (afterData s) := by
  have hidx := h.idx_lt_slice hp
  rw [afterData_eq]
  refine ⟨h.1, ?_⟩
  by_cases hlast : s.idx + 1 = s.cfg.slice
  · simp only [hlast, if_true]
  · simp only [hlast, if_false, hp]
    omega

/-- After ADV the scan is at the start of a sub-frame there is (R206). -/
theorem scanInRange_stepADV {s : State} (h : ScanInRange s) (hc : s.cfg.Ok) : ScanInRange (stepADV s) := by
  have hsf := h.1
  refine ⟨?_, addrRepeat_pos (by rwa [stepADV_cfg])⟩
  rw [stepADV_sf, stepADV_cfg]
  split <;> omega

/-- ADV raises the interrupt at the boundary alone (R207, R247). -/
theorem irqOnlyAtBoundary_stepADV {s : State} (h : s.irqPending = false) : IrqOnlyAtBoundary (stepADV s) := by
  intro hirq
  have hwrap : s.sf + 1 = s.cfg.nsf := by simpa [stepADV_irqPending, h] using hirq
  simp [hold, stepADV_irqPending, stepADV_sf, hwrap]

theorem irqOnlyAtBoundary_of_not_pending {s : State} (h : s.irqPending = false) : IrqOnlyAtBoundary s :=
  fun hirq => absurd (h.symm.trans hirq) Bool.false_ne_true

theorem chainMove_keeps_inv {s t : State} (h : Inv s) (hr : s.runState = .running) (hh : hold s = false)
    (e : chainMove s = .next t) : Inv t := by
  have hscan := (h.armed hr).scan
  have hirq := h.irqPending_of_not_held hr hh
  unfold chainMove at e
  split at e
  case h_1 hp =>
    obtain ⟨v, -, hk⟩ := attempt_next.1 e; cases hk
    exact h.scanMoved hr (by rw [afterAddr_eq]; rfl) (scanInRange_afterAddr (s := emit _ _) hscan hp)
      (irqOnlyAtBoundary_of_not_pending ((afterAddr_irqPending _).trans hirq))
  case h_2 hp =>
    obtain ⟨v, -, hk⟩ := attempt_next.1 e; cases hk
    have hidx : s.idx = 0 := by
      have := hscan.2
      rwa [hp] at this
    exact h.scanMoved hr rfl ⟨hscan.1, hidx⟩ (irqOnlyAtBoundary_of_not_pending hirq)
  case h_3 =>
    obtain ⟨v, -, hk⟩ := attempt_next.1 e; cases hk
    exact h.scanMoved hr rfl ⟨hscan.1, slice_pos h.config⟩ (irqOnlyAtBoundary_of_not_pending hirq)
  case h_4 hp =>
    obtain ⟨v, -, hk⟩ := attempt_next.1 e; cases hk
    exact h.scanMoved hr (by rw [afterData_eq]; rfl) (scanInRange_afterData (s := emit _ _) hscan hp)
      (irqOnlyAtBoundary_of_not_pending ((afterData_irqPending _).trans hirq))
  case h_5 =>
    cases e
    exact h.scanMoved hr (by rw [stepADV_eq]; split <;> rfl) (scanInRange_stepADV hscan h.config)
      (irqOnlyAtBoundary_stepADV hirq)

/-! ### The turns of the three agents -/

/-- Outside RUNNING the outputs matter to nothing the invariant says. -/
theorem Inv.outputsLost {s t : State} (h : Inv s) (hr : t.runState ≠ .running)
    (ht : t = { s with
      runState := t.runState, tmrPeriod := t.tmrPeriod, tmrCompare := t.tmrCompare
      addrPort := t.addrPort, dataPort := t.dataPort, drawn := t.drawn }) : Inv t := by
  have htarget : ShowTargetsBack t := by
    rw [ht]
    exact h.target
  exact inv_of_same_memory h (by rw [ht]) (by rw [ht]) (by rw [ht]) (by rw [ht]) (by rw [ht]; exact fun _ hi => hi)
    htarget fun hrun => absurd hrun hr

theorem chainTurn_keeps_inv {s t : State} (h : Inv s) (e : chainTurn s = .next t) : Inv t := by
  unfold chainTurn at e
  split at e
  case h_1 hr =>
    by_cases hh : hold s = true
    · rw [if_pos hh] at e; cases e; exact h
    · rw [if_neg hh] at e
      exact chainMove_keeps_inv h hr (eq_false_of_ne_true hh) e
  case h_2 hr =>
    cases e
    exact h.outputsLost (by rw [loseOutputs_runState, hr]; decide) rfl
  all_goals cases e; exact h

/-- The handler's step points the data stream at the buffer it makes active (R36 item 1, R210). -/
theorem descriptorsProgrammed_refreshStep {s : State} (h : DescriptorsProgrammed s) : DescriptorsProgrammed (refreshStep s) := by
  have hdesc : s.desc = _ := h
  unfold DescriptorsProgrammed refreshStep swapIfPending
  split
  · simp only [ackIrq, emit, swapBuffers, hdesc]
  · exact hdesc

/-- With a SHOW in flight no swap is pending, so the handler leaves ACTIVE (R156). -/
theorem showTargetsBack_refreshStep {s : State} (h : ShowTargetsBack s) : ShowTargetsBack (refreshStep s) := by
  intro hp
  have hpos : (refreshStep s).hostPos = s.hostPos := swapIfPending_hostPos s
  rw [hpos] at hp
  obtain ⟨htarget, hswap⟩ := h hp
  have hactive : (refreshStep s).active = s.active := (swapIfPending_active s).trans (by rw [hswap, Bool.xor_false])
  exact ⟨(swapIfPending_encTarget s).trans (by rw [htarget, hactive]), swapIfPending_swapPending s⟩

theorem refreshStep_keeps_inv {s : State} (h : Inv s) : Inv (refreshStep s) := by
  obtain ⟨hsf, hphase, hidx, -⟩ := refreshStep_frame s
  have hcfg : (refreshStep s).cfg = s.cfg := swapIfPending_cfg s
  have hrun : (refreshStep s).runState = s.runState := swapIfPending_runState s
  have hpos : (refreshStep s).hostPos = s.hostPos := swapIfPending_hostPos s
  refine inv_of_same_memory h hcfg (swapIfPending_mem s) (swapIfPending_bright s) (swapIfPending_c0 s)
    (fun i hi => hpos.symm.trans hi) (showTargetsBack_refreshStep h.target) fun hr => ?armed
  case armed =>
    have hr' : s.runState = .running := hrun.symm.trans hr
    have harm := h.armed hr'
    refine ⟨hr', ?scan, irqOnlyAtBoundary_of_not_pending rfl, descriptorsProgrammed_refreshStep harm.descriptors⟩
    case scan =>
      unfold ScanInRange
      rw [hsf, hphase, hidx, hcfg]
      exact harm.scan

/-- The turns of CHAIN, REFRESH and ENV keep the invariant. -/
theorem turn_keeps_inv_of_not_host {s t : State} {a : Agent} (ha : a ≠ .host) (h : Inv s) (e : turn a s = .next t) : Inv t := by
  cases a with
  | host => exact absurd rfl ha
  | chain => exact chainTurn_keeps_inv h e
  | refresh =>
    obtain rfl | ⟨-, -, rfl⟩ := refreshTurn_cases e
    · exact h
    · exact refreshStep_keeps_inv h
  | env =>
    obtain rfl | ⟨-, rfl⟩ := envTurn_cases e
    · exact h
    · exact h.outputsLost (by simp) rfl

end Sys2Proof.Machine
end

section
/-! PROOFS. The invariant under the HOST's turns (R36): what each command's step leaves of the regions, of C0 and of HOSTPOS; then
every step, that none stops, and reset (R38). -/

namespace Sys2Proof.Machine

/-! ### Where a command's step leaves HOSTPOS (R39) -/

/-- A step leaves no command in flight, or is SHOW's or SETBRI's and leaves that one. -/
theorem exec_hostPos {i : Instr} {s t : State} (e : exec i s = .next t) :
    t.hostPos = .none ∨ i = .showCmd ∧ (t.hostPos = .show1 ∨ t.hostPos = .show2) ∨ ∃ f j, i = .setbri f ∧ t.hostPos = .bri j := by
  obtain ⟨-, -, -, -, -, -, -, hnone⟩ := exec_frame e
  by_cases hshow : i = .showCmd
  · subst hshow
    obtain ⟨-, ⟨-, rfl⟩ | ⟨-, rfl⟩ | rfl⟩ := exec_showCmd_cases e
    · exact .inr (.inl ⟨rfl, .inr rfl⟩)
    · exact .inl rfl
    · exact .inr (.inl ⟨rfl, .inl rfl⟩)
  · by_cases hbri : ∃ f, i = .setbri f
    · obtain ⟨f, rfl⟩ := hbri
      obtain ⟨-, ⟨j, -, -, rfl⟩ | ⟨j, -, -, rfl⟩ | rfl⟩ := exec_setbri_cases e
      · by_cases hlast : j + 1 = 2 * (briWritten j s).cfg.ttEntries
        · rw [briAdvance_of_last hlast]; exact .inl rfl
        · rw [briAdvance_of_more hlast]; exact .inr (.inr ⟨f, j + 1, rfl, rfl⟩)
      · exact .inl rfl
      · exact .inr (.inr ⟨f, 0, rfl, rfl⟩)
    · exact .inl (hnone hshow fun f h => hbri ⟨f, h⟩)

theorem exec_show_of_hostPos {i : Instr} {s t : State} (e : exec i s = .next t)
    (hp : t.hostPos = .show1 ∨ t.hostPos = .show2) : i = .showCmd := by
  rcases exec_hostPos e with h | ⟨h, -⟩ | ⟨f, j, -, h⟩
  · rcases hp with hp | hp <;> cases h.symm.trans hp
  · exact h
  · rcases hp with hp | hp <;> cases h.symm.trans hp

theorem exec_setbri_of_hostPos {i : Instr} {s t : State} (e : exec i s = .next t) {j : Nat} (hp : t.hostPos = .bri j) :
    ∃ f, i = .setbri f := by
  rcases exec_hostPos e with h | ⟨-, h | h⟩ | ⟨f, k, h, -⟩
  · cases h.symm.trans hp
  · cases h.symm.trans hp
  · cases h.symm.trans hp
  · exact ⟨f, h⟩

/-! ### The timing table after a write of SETBRI (R186) -/

/-- Period entry j after write W(i): the new one if the write is its own, else as before. -/
theorem briWritten_period {s : State} {i : Nat} (hc : s.cfg.Ok) (hw : MemoryWf s) (hi : i < 2 * s.cfg.ttEntries)
    (h0 : s.c0.toNat ≤ s.cfg.tUnit) (j : Nat) :
    (briWritten i s).entryAt .periodTbl j =
      if i = 2 * j then some (periodEntry s.cfg j) else s.entryAt .periodTbl j := by
  obtain ⟨-, hentry, hentries, -⟩ := briWritten_spec hc hw hi fun _ => h0
  split
  · next hij =>
    subst hij
    obtain ⟨hreg, hdiv, hval⟩ := even_write s.cfg s.c0.toNat j
    rwa [hreg, hdiv, hval] at hentry
  · next hij =>
    refine hentries _ j ?_
    by_cases hpar : i % 2 = 0
    · exact .inr (by omega)
    · rw [briRegion, if_neg hpar]
      exact .inl (by decide)

/-- Compare entry j after write W(i). -/
theorem briWritten_compare {s : State} {i : Nat} (hc : s.cfg.Ok) (hw : MemoryWf s) (hi : i < 2 * s.cfg.ttEntries)
    (h0 : s.c0.toNat ≤ s.cfg.tUnit) (j : Nat) :
    (briWritten i s).entryAt .compareTbl j =
      if i = 2 * j + 1 then some (compareEntry s.cfg s.c0.toNat j) else s.entryAt .compareTbl j := by
  obtain ⟨-, hentry, hentries, -⟩ := briWritten_spec hc hw hi fun _ => h0
  split
  · next hij =>
    subst hij
    obtain ⟨hreg, hdiv, hval⟩ := odd_write s.cfg s.c0.toNat j
    rwa [hreg, hdiv, hval] at hentry
  · next hij =>
    refine hentries _ j ?_
    by_cases hpar : i % 2 = 0
    · rw [briRegion, if_pos hpar]
      exact .inl (by decide)
    · exact .inr (by omega)

/-- What a SETBRI past its clamp step finds in C0 (R30). -/
theorem Inv.c0_le_of_bri {s : State} (h : Inv s) {i : Nat} (hp : s.hostPos = .bri i) : s.c0.toNat ≤ s.cfg.tUnit :=
  h.brightness.2 (.inr ⟨i, hp⟩)

/-! ### What a command's step leaves of the invariant, part by part -/

theorem setPixel_keeps_memoryWf {s t : State} {col row : Nat} {r g b : Byte} (hc : s.cfg.Ok) (hw : MemoryWf s)
    (e : setPixel col row r g b s = .next t) : MemoryWf t := by
  by_cases hin : col < s.cfg.cols ∧ row < s.cfg.rows
  · obtain ⟨u, hu, hwf, -⟩ := setPixel_spec hc hw hin.1 hin.2 r g b
    cases e.symm.trans hu
    exact hwf
  · rw [setPixel_of_outside (by omega)] at e
    cases e
    exact hw

/-- Every command keeps the regions' canonical form. -/
theorem exec_keeps_memoryWf {i : Instr} {s t : State} (h : Inv s) (e : exec i s = .next t) : MemoryWf t := by
  have hc := h.config
  have hw := h.memory
  cases i with
  | beginCmd =>
    rw [exec_beginCmd_of_ok hc] at e; cases e
    obtain ⟨hwf, -⟩ := beginEffect_spec hc hw h.brightness.1
    exact hwf
  | setpix col row r g b => exact setPixel_keeps_memoryWf hc hw e
  | setpixp col row pix => exact setPixel_keeps_memoryWf hc hw e
  | stg off v =>
    rcases Nat.lt_or_ge off s.cfg.gridBytes with hoff | hoff
    · cases e.symm.trans (execStg_of_inside hc hoff v)
      obtain ⟨hwf, -⟩ := gridWrite_spec hw (lt_gridRegion hc hoff) v
      exact hwf
    · cases e.symm.trans (execStg_of_outside hoff v)
      exact hw
  | showCmd =>
    obtain ⟨-, ⟨-, rfl⟩ | ⟨-, rfl⟩ | rfl⟩ := exec_showCmd_cases e
    · exact (showEncode_spec hc hw).1
    · exact hw
    · exact hw
  | setbri f =>
    obtain ⟨-, ⟨j, hp, hj, rfl⟩ | ⟨j, -, -, rfl⟩ | rfl⟩ := exec_setbri_cases e
    · obtain ⟨hwf, -⟩ := briWritten_spec hc hw hj fun _ => h.c0_le_of_bri hp
      exact memoryWf_congr (briAdvance_mem j _) (briAdvance_cfg j _) hwf
    · exact hw
    · exact hw
  | ldg off =>
    simp only [exec, execLdg] at e
    split at e
    · obtain ⟨v, -, hk⟩ := attempt_next.1 e; cases hk; exact hw
    · cases e; exact hw
  | getpix => cases e; exact hw
  | bufwait => cases e; exact hw
  | getbri => cases e; exact hw

/-- Every command keeps the brightness and C0 in range (R29, R30). -/
theorem exec_keeps_brightness {i : Instr} {s t : State} (h : Inv s) (e : exec i s = .next t) : BrightnessInRange t := by
  have hc := h.config
  have hbright : isBrightness t.bright = true := by
    rcases exec_bright e with hb | ⟨f, -, hb⟩
    · rw [hb]; exact h.brightness.1
    · rw [hb]; exact clamp_isBrightness f
  refine ⟨hbright, fun huse => ?c0⟩
  obtain ⟨hcfg, -, -, -, hrun, hc0, -⟩ := exec_frame e
  rw [hcfg]
  by_cases hbri : ∃ f, i = .setbri f
  · obtain ⟨f, rfl⟩ := hbri
    have hkept (hc0 : t.c0 = s.c0) (huse : C0InUse s) : t.c0.toNat ≤ s.cfg.tUnit := hc0 ▸ h.brightness.2 huse
    obtain ⟨-, ⟨j, hp, -, rfl⟩ | ⟨j, hp, -, rfl⟩ | rfl⟩ := exec_setbri_cases e
    · exact hkept (briAdvance_c0 j _) (.inr ⟨j, hp⟩)
    · exact hkept rfl (.inr ⟨j, hp⟩)
    · exact (latchC0_toNat (s := { s with bright := clamp f }) hc hbright).trans_le (c0Of_le hbright)
  · by_cases hbegin : i = .beginCmd
    · subst hbegin
      cases e.symm.trans (exec_beginCmd_of_ok hc)
      exact (beginEffect_c0 hc h.brightness.1).trans_le (c0Of_le h.brightness.1)
    · obtain ⟨-, hstay⟩ := hc0 fun f hf => hbri ⟨f, hf⟩
      obtain ⟨hc0, -⟩ := hstay hbegin
      obtain ⟨hrun, -⟩ := hrun hbegin
      rw [hc0]
      refine h.brightness.2 (.inl ?_)
      rcases huse with hr | ⟨j, hj⟩
      · exact hrun.symm.trans hr
      · exact absurd (exec_setbri_of_hostPos e hj) hbri

/-- A SHOW in flight is one whose last step was its own: S1 sets the target, S2 leaves it (R155). -/
theorem exec_keeps_target {i : Instr} {s t : State} (h : Inv s) (e : exec i s = .next t) : ShowTargetsBack t := by
  intro hp
  obtain rfl := exec_show_of_hostPos e hp
  obtain ⟨-, ⟨hs, rfl⟩ | ⟨-, rfl⟩ | rfl⟩ := exec_showCmd_cases e
  · exact h.target (.inl hs)
  · rcases hp with hp | hp <;> cases hp
  · exact ⟨rfl, rfl⟩

/-! ### The tables and the buffers of a RUNNING state -/

/-- Reading a region depends on that region's contents alone. -/
theorem byteAt_of_region {s t : State} {r : Region} (h : t.mem.get r = s.mem.get r) (off : Nat) :
    t.byteAt r off = s.byteAt r off := by
  unfold State.byteAt
  rw [h]

theorem entryAt_of_region {s t : State} {r : Region} (h : t.mem.get r = s.mem.get r) (hc : t.cfg = s.cfg) (i : Nat) :
    t.entryAt r i = s.entryAt r i := by
  unfold State.entryAt
  rw [h, hc]

/-- No command but BEGIN spoils the Address Table or a period (R36 items 3 and 6). -/
theorem exec_keeps_tables {i : Instr} {s t : State} (h : Inv s) (e : exec i s = .next t) (hbegin : i ≠ .beginCmd)
    (htab : TablesBuilt s) : TablesBuilt t := by
  obtain ⟨haddr, hper⟩ := htab
  obtain ⟨hcfg, -, -, -, hstay, htables, -⟩ := exec_frame e
  obtain ⟨-, -, -, -, -, -, -, hmemA⟩ := hstay hbegin
  unfold TablesBuilt
  rw [hcfg]
  refine ⟨fun off ho => (byteAt_of_region (r := .addrTbl) hmemA off).trans (haddr off ho), fun j hj => ?_⟩
  by_cases hbri : ∃ f, i = .setbri f
  · obtain ⟨f, rfl⟩ := hbri
    obtain ⟨-, ⟨k, hp, hk, rfl⟩ | ⟨k, -, -, rfl⟩ | rfl⟩ := exec_setbri_cases e
    · rw [entryAt_congr (briAdvance_mem k _) (briAdvance_cfg k _),
        briWritten_period h.config h.memory hk (h.c0_le_of_bri hp), hper j hj, ite_self]
    · exact hper j hj
    · exact hper j hj
  · obtain ⟨-, hmem⟩ := htables fun f hf => hbri ⟨f, hf⟩
    obtain ⟨-, hmemP, -⟩ := hmem hbegin
    exact (entryAt_of_region (r := .periodTbl) hmemP hcfg j).trans (hper j hj)

/-- No command but BEGIN takes a compare above its period: a SETBRI's own is C0's, and C0 is at most T_UNIT (R36 item 5). -/
theorem exec_keeps_compares {i : Instr} {s t : State} (h : Inv s) (e : exec i s = .next t) (hbegin : i ≠ .beginCmd)
    (hcmp : ComparesContained s) : ComparesContained t := by
  obtain ⟨hcfg, -, -, -, -, htables, -⟩ := exec_frame e
  unfold ComparesContained
  rw [hcfg]
  intro j hj
  by_cases hbri : ∃ f, i = .setbri f
  · obtain ⟨f, rfl⟩ := hbri
    obtain ⟨-, ⟨k, hp, hk, rfl⟩ | ⟨k, -, -, rfl⟩ | rfl⟩ := exec_setbri_cases e
    · have h0 := h.c0_le_of_bri hp
      rw [entryAt_congr (briAdvance_mem k _) (briAdvance_cfg k _), briWritten_compare h.config h.memory hk h0]
      split
      · exact ⟨_, rfl, compareEntry_le h0 j⟩
      · exact hcmp j hj
    · exact hcmp j hj
    · exact hcmp j hj
  · obtain ⟨-, hmem⟩ := htables fun f hf => hbri ⟨f, hf⟩
    obtain ⟨-, -, hmemC⟩ := hmem hbegin
    rw [entryAt_of_region (r := .compareTbl) hmemC hcfg]
    exact hcmp j hj

/-- No command but BEGIN leaves a byte of a buffer unwritten that was written. -/
theorem exec_keeps_buffers {i : Instr} {s t : State} (h : Inv s) (e : exec i s = .next t) (hbegin : i ≠ .beginCmd)
    (hbuf : BuffersWritten s) : BuffersWritten t := by
  obtain ⟨hcfg, -, -, -, -, -, hstay, -⟩ := exec_frame e
  unfold BuffersWritten
  rw [hcfg]
  intro a off ho
  by_cases hshow : i = .showCmd
  · subst hshow
    obtain ⟨-, ⟨-, rfl⟩ | ⟨-, rfl⟩ | rfl⟩ := exec_showCmd_cases e
    · obtain ⟨-, hbytes⟩ := showEncode_spec h.config h.memory
      rw [hbytes]
      split
      · exact ⟨_, rfl⟩
      · exact hbuf a off ho
    · exact hbuf a off ho
    · exact hbuf a off ho
  · obtain ⟨-, -, hbs0, hbs1⟩ := hstay hshow hbegin
    have hmem : t.mem.get (Region.bs a) = s.mem.get (Region.bs a) := by
      cases a
      · exact hbs0
      · exact hbs1
    rw [byteAt_of_region hmem]
    exact hbuf a off ho

/-- BEGIN arms the chain with all that R36 asks (R232). -/
theorem armedOk_beginEffect {s : State} (h : Inv s) : ArmedOk (beginEffect s) := by
  have hc := h.config
  obtain ⟨-, haddr, hentries, hbuffers⟩ := beginEffect_spec hc h.memory h.brightness.1
  refine ⟨⟨?addr, ?periods⟩, ?compares, ?buffers, ?scan, ?irq, ?descriptors⟩
  case addr => rw [beginEffect_cfg]; exact haddr
  case periods => rw [beginEffect_cfg]; exact fun i hi => (hentries i hi).1
  case compares =>
    unfold ComparesContained
    rw [beginEffect_cfg]
    exact fun i hi => ⟨_, (hentries i hi).2, compareEntry_le (c0Of_le h.brightness.1) i⟩
  case buffers =>
    unfold BuffersWritten
    rw [beginEffect_cfg]
    exact fun a off ho => ⟨_, hbuffers a off ho⟩
  case scan =>
    unfold ScanInRange
    rw [beginEffect_cfg]
    exact ⟨nsf_pos hc, addrRepeat_pos hc⟩
  case irq => exact irqOnlyAtBoundary_of_not_pending rfl
  case descriptors => rfl

theorem exec_keeps_armed {i : Instr} {s t : State} (h : Inv s) (e : exec i s = .next t) (hr : t.runState = .running) :
    ArmedOk t := by
  by_cases hbegin : i = .beginCmd
  · subst hbegin
    cases e.symm.trans (exec_beginCmd_of_ok h.config)
    exact armedOk_beginEffect h
  · obtain ⟨hcfg, -, -, -, hstay, -⟩ := exec_frame e
    obtain ⟨hrun, hsf, hphase, hidx, hactive, hirq, hdesc, -⟩ := hstay hbegin
    have harm := h.armed (hrun.symm.trans hr)
    have hscan : ScanInRange t := by
      unfold ScanInRange
      rw [hsf, hphase, hidx, hcfg]
      exact harm.scan
    have hbound : IrqOnlyAtBoundary t := by
      unfold IrqOnlyAtBoundary hold
      rw [hirq, hsf, hphase, hidx]
      exact harm.irq
    have hprog : DescriptorsProgrammed t := by
      unfold DescriptorsProgrammed
      rw [hdesc, hcfg, hactive]
      exact harm.descriptors
    exact ⟨exec_keeps_tables h e hbegin harm.tables, exec_keeps_compares h e hbegin harm.compares,
      exec_keeps_buffers h e hbegin harm.buffers, hscan, hbound, hprog⟩

/-! ### Every step keeps the invariant -/

/-- A step of any command keeps the invariant. -/
theorem exec_keeps_inv {i : Instr} {s t : State} (h : Inv s) (e : exec i s = .next t) : Inv t where
  config := by
    obtain ⟨hcfg, -⟩ := exec_frame e
    rw [hcfg]
    exact h.config
  memory := exec_keeps_memoryWf h e
  brightness := exec_keeps_brightness h e
  target := exec_keeps_target h e
  armed := exec_keeps_armed h e

/-- The invariant does not look at the HOST's words, whose turn it is, or the draws. -/
theorem Inv.withHost {s : State} (h : Inv s) (c : Command) (p : List Command) (as : List Agent) (n : Nat) :
    Inv { s with cmd := c, prog := p, sched := as, drawn := n } :=
  inv_of_same_memory h rfl rfl rfl rfl (fun _ hi => hi) h.target
    fun hr => ⟨hr, (h.armed hr).scan, (h.armed hr).irq, (h.armed hr).descriptors⟩

/-- A response takes the command out of flight and keeps the invariant. -/
theorem Inv.responded {s : State} (h : Inv s) (err : Byte) (val : Word32) : Inv (respond err val s) :=
  inv_of_same_memory h rfl rfl rfl rfl (fun _ hi => by cases hi) (by rintro (hp | hp) <;> cases hp)
    fun hr => ⟨hr, (h.armed hr).scan, (h.armed hr).irq, (h.armed hr).descriptors⟩

theorem turn_keeps_inv {s t : State} {a : Agent} (h : Inv s) (e : turn a s = .next t) : Inv t := by
  by_cases ha : a = .host
  · subst ha
    obtain ⟨c, p, -, rfl | ⟨rfl, -⟩ | ⟨i, -, hexec⟩⟩ := hostTurn_cmd_cases e
    · exact h.withHost c p _ _
    · exact (h.withHost c p _ _).responded _ _
    · exact exec_keeps_inv (h.withHost c p _ _) hexec
  · exact turn_keeps_inv_of_not_host ha h e

/-- Taking a turn is the schedule's business. -/
theorem Inv.takeTurn {s : State} (h : Inv s) : Inv (takeTurn s).2 := by
  unfold Machine.takeTurn
  split
  · exact h.withHost _ _ _ _
  · exact h.withHost _ _ _ _

/-- Settles O53: taking the turn keeps the invariant, and so does each agent's turn. -/
theorem stepKeepsTheInvariant : Obligations.StepKeepsTheInvariant :=
  fun _ _ h e => turn_keeps_inv h.takeTurn e

/-! ### No step stops -/

/-- Where CFG_OK holds every command answers (R67). -/
theorem exec_defined {s : State} (hc : s.cfg.Ok) (i : Instr) : ∃ t, exec i s = .next t := by
  have hpixel (col row : Nat) (r g b : Byte) : ∃ t, setPixel col row r g b s = .next t := by
    by_cases hin : col < s.cfg.cols ∧ row < s.cfg.rows
    · exact ⟨_, setPixel_of_inside hc hin.1 hin.2 r g b⟩
    · exact ⟨_, setPixel_of_outside (by omega) r g b⟩
  cases i with
  | beginCmd => exact ⟨_, exec_beginCmd_of_ok hc⟩
  | setpix col row r g b => exact hpixel col row r g b
  | setpixp col row pix => exact hpixel col row _ _ _
  | getpix => exact ⟨_, rfl⟩
  | ldg off =>
    rcases Nat.lt_or_ge off s.cfg.gridBytes with hoff | hoff
    · obtain ⟨v, t, -, ht, -⟩ := ldgAnswersTheGridByte s off hc hoff
      exact ⟨t, ht⟩
    · exact ⟨_, execLdg_of_outside hoff⟩
  | stg off v =>
    rcases Nat.lt_or_ge off s.cfg.gridBytes with hoff | hoff
    · exact ⟨_, execStg_of_inside hc hoff v⟩
    · exact ⟨_, execStg_of_outside hoff v⟩
  | showCmd =>
    cases hp : s.hostPos with
    | none => exact ⟨_, exec_showCmd_at_none hc hp⟩
    | show1 => exact ⟨_, exec_showCmd_at_show1 hc hp⟩
    | show2 => exact ⟨_, exec_showCmd_at_show2 hc hp⟩
    | bri j => exact ⟨showRetract s, by simp only [exec, execShow, hp, if_pos hc]⟩
  | bufwait => exact ⟨_, rfl⟩
  | setbri f =>
    cases hp : s.hostPos with
    | none => exact ⟨_, exec_setbri_at_none hc hp f⟩
    | show1 => exact ⟨briClamp f s, by simp only [exec, execSetbri, hp, if_pos hc]⟩
    | show2 => exact ⟨briClamp f s, by simp only [exec, execSetbri, hp, if_pos hc]⟩
    | bri j =>
      by_cases hj : j < 2 * s.cfg.ttEntries
      · exact ⟨_, (exec_setbri_at_bri hc hp f).trans (briWrite_of_lt hc hj)⟩
      · exact ⟨_, (exec_setbri_at_bri hc hp f).trans (if_neg hj)⟩
  | getbri => exact ⟨_, rfl⟩

theorem runCommand_defined {s : State} (hc : s.cfg.Ok) : ∃ t, runCommand s = .next t := by
  cases hd : decode s.cmd with
  | ok i =>
    rw [runCommand_of_decode hd]
    exact exec_defined hc i
  | error err => exact ⟨raise .cmdErr s, by simp only [runCommand, hd]⟩

theorem hostTurn_defined {s : State} (hc : s.cfg.Ok) : ∃ t, hostTurn s = .next t := by
  unfold hostTurn
  split
  · exact ⟨_, rfl⟩
  · exact runCommand_defined (s := issue _ _ s) hc
  · exact runCommand_defined hc

/-- In a RUNNING state every fetch finds a value (R36). -/
theorem chainTurn_defined {s : State} (h : Inv s) : ∃ t, chainTurn s = .next t := by
  cases hr : s.runState with
  | idle => exact ⟨s, by simp only [chainTurn, hr]⟩
  | cfgFault => exact ⟨s, by simp only [chainTurn, hr]⟩
  | underrunFault => exact ⟨loseOutputs s, by simp only [chainTurn, hr]⟩
  | running =>
    by_cases hh : hold s = true
    · exact ⟨s, chainTurn_of_held hr hh⟩
    · cases hp : s.phase with
      | a => exact ⟨_, (xaDrivesTheRowCode s h hr hp (eq_false_of_ne_true hh)).2⟩
      | p => exact ⟨_, (xpDrivesThePlanePeriod s h hr hp).2⟩
      | c =>
        obtain ⟨v, -, -, ht⟩ := xcDrivesTheCompareEntry s h hr hp
        exact ⟨_, ht⟩
      | d =>
        obtain ⟨v, -, ht⟩ := xdDrivesTheActiveBuffer s h hr hp
        exact ⟨_, ht⟩
      | w => exact ⟨_, chainTurn_of_phase_w hr hp⟩

theorem turn_defined {s : State} (h : Inv s) (a : Agent) : ∃ t, turn a s = .next t := by
  cases a with
  | host => exact hostTurn_defined h.config
  | chain => exact chainTurn_defined h
  | refresh =>
    show ∃ t, refreshTurn s = .next t
    unfold refreshTurn
    split <;> exact ⟨_, rfl⟩
  | env =>
    show ∃ t, envTurn s = .next t
    unfold envTurn
    split <;> exact ⟨_, rfl⟩

/-- Settles O54: every agent's turn answers, whoever has it. -/
theorem stepNeverStops : Obligations.StepNeverStops :=
  fun _ h => turn_defined h.takeTurn _

/-! ### Reset (R38) -/

/-- Settles O51: the reset state written out; GRID lists nothing and reads 0, the other regions list nothing and have no value. -/
theorem resetIsAsTheTableSays : Obligations.ResetIsAsTheTableSays := by
  refine ⟨rfl, rfl, rfl, rfl, rfl, rfl, rfl, rfl, rfl, rfl, rfl, fun _ => rfl, fun reg off hreg => ?unwritten⟩
  case unwritten =>
    cases reg with
    | grid => exact absurd rfl hreg
    | bs0 => rfl
    | bs1 => rfl
    | addrTbl => rfl
    | periodTbl => rfl
    | compareTbl => rfl

theorem brightReset_isBrightness {c : Config} (hc : c.Ok) : isBrightness c.brightReset = true := by
  obtain ⟨⟨-, -, -, -, -, -, -, -, -, -, -, -, -, hbright⟩, -⟩ := hc
  exact (isBrightness_iff _).2 hbright

/-- Settles O52: after reset nothing is in flight and the chain does not run, so little is asked. -/
theorem resetMeetsTheInvariant : Obligations.ResetMeetsTheInvariant := by
  intro c hc
  have hidle : (State.resetOf c).runState ≠ .running := by intro h; cases h
  have hempty : MemoryWf (State.resetOf c) := fun r => by cases r <;> rfl
  have hunused : ¬ C0InUse (State.resetOf c) := by
    rintro (h | ⟨i, h⟩)
    · exact hidle h
    · cases h
  refine ⟨⟨hc, hempty, ⟨brightReset_isBrightness hc, fun h => absurd h hunused⟩, ?target, fun h => absurd h hidle⟩,
    ⟨trivial, fun i h => ?noRebuild, fun h => absurd h hidle⟩⟩
  case target => rintro (h | h) <;> cases h
  case noRebuild => cases h

end Sys2Proof.Machine
end

section
/-! PROOFS. The rebuild's story (R187): at every moment of a SETBRI the entries its writes have reached are new, and with none in
flight a RUNNING chain's compares are C0's. -/

namespace Sys2Proof.Machine

/-! ### The entries below a rebuild's position -/

/-- The entries of the timing tables that the first i writes of a SETBRI go to are new. -/
def NewBelow (s : State) (i : Nat) : Prop :=
  (∀ j, j < s.cfg.ttEntries → 2 * j < i → s.entryAt .periodTbl j = some (periodEntry s.cfg j)) ∧
  (∀ j, j < s.cfg.ttEntries → 2 * j + 1 < i → s.entryAt .compareTbl j = some (compareEntry s.cfg s.c0.toNat j))

theorem rebuildPrefix_iff {s : State} : RebuildPrefix s ↔ ∀ i, s.hostPos = .bri i → NewBelow s i := Iff.rfl

theorem newBelow_zero (s : State) : NewBelow s 0 := ⟨fun _ _ h => by omega, fun _ _ h => by omega⟩

theorem newBelow_congr {s t : State} (hm : t.mem = s.mem) (hc : t.cfg = s.cfg) (h0 : t.c0 = s.c0) {i : Nat}
    (h : NewBelow s i) : NewBelow t i := by
  unfold NewBelow
  simp only [entryAt_congr hm hc, hc, h0]
  exact h

/-- A write takes the new entries one further. -/
theorem newBelow_briWritten {s : State} {i : Nat} (hinv : Inv s) (hp : s.hostPos = .bri i) (hi : i < 2 * s.cfg.ttEntries)
    (h : NewBelow s i) : NewBelow (briWritten i s) (i + 1) := by
  have h0 := hinv.c0_le_of_bri hp
  obtain ⟨hper, hcmp⟩ := h
  refine ⟨fun j hj hji => ?period, fun j hj hji => ?compare⟩
  case period =>
    rw [briWritten_period hinv.config hinv.memory hi h0]
    split
    · rfl
    · exact hper j hj (by omega)
  case compare =>
    rw [briWritten_compare hinv.config hinv.memory hi h0]
    split
    · rfl
    · exact hcmp j hj (by omega)

/-- With all 2 * TT_ENTRIES writes done the compares are C0's throughout. -/
theorem comparesBuilt_of_newBelow {s : State} {i : Nat} (hi : i = 2 * s.cfg.ttEntries) (h : NewBelow s i) : ComparesBuilt s :=
  fun j hj => h.2 j hj (by omega)

/-! ### What a turn leaves of the story -/

/-- The story does not change while regions, C0, HOSTPOS and CMD stay and the chain is not started. -/
theorem rebuildOk_congr {s t : State} (h : RebuildOk s) (hm : t.mem = s.mem) (hc : t.cfg = s.cfg) (h0 : t.c0 = s.c0)
    (hp : t.hostPos = s.hostPos) (hcmd : s.hostPos ≠ .none → t.cmd = s.cmd) (hr : t.runState = .running → s.runState = .running) :
    RebuildOk t where
  inFlight := by
    have hflight := h.inFlight
    unfold CommandInFlight at hflight ⊢
    rw [hp, hc]
    by_cases hnone : s.hostPos = .none
    · rw [hnone]
      trivial
    · rwa [hcmd hnone]
  newBelow := fun i hi => newBelow_congr hm hc h0 (h.newBelow i (hp.symm.trans hi))
  built := fun hrun hno => by
    unfold ComparesBuilt
    simp only [entryAt_congr hm hc, hc, h0]
    exact h.built (hr hrun) fun i hi => hno i (hp.trans hi)

/-- A SETBRI in flight is the one CMD decodes to, so another command's step finds none. -/
theorem RebuildOk.no_bri_of_decode {s : State} (h : RebuildOk s) (hdec : ∀ f, decode s.cmd ≠ .ok (.setbri f)) (j : Nat) :
    s.hostPos ≠ .bri j := by
  intro hp
  have hflight := h.inFlight
  unfold CommandInFlight at hflight
  rw [hp] at hflight
  obtain ⟨-, f, hf⟩ := hflight
  exact hdec f hf

/-- With nothing in flight any more the story is that of the compares. -/
theorem rebuildOk_of_none {t : State} (hp : t.hostPos = .none) (hb : t.runState = .running → ComparesBuilt t) : RebuildOk t where
  inFlight := by
    unfold CommandInFlight
    rw [hp]
    trivial
  newBelow := fun i hi => by cases hp.symm.trans hi
  built := fun hr _ => hb hr

/-- With a SETBRI at BRI(i) it is that of the entries below i. -/
theorem rebuildOk_of_bri {t : State} {i : Nat} {f : Word32} (hp : t.hostPos = .bri i) (hi : i < 2 * t.cfg.ttEntries)
    (hdec : decode t.cmd = .ok (.setbri f)) (hnew : NewBelow t i) : RebuildOk t where
  inFlight := by
    unfold CommandInFlight
    rw [hp]
    exact ⟨hi, f, hdec⟩
  newBelow := fun j hj => by
    cases hp.symm.trans hj
    exact hnew
  built := fun _ hno => absurd hp (hno i)

theorem ttEntries_pos {c : Config} (hc : c.Ok) : 0 < c.ttEntries := by
  rw [ttEntries_eq]
  exact nsf_pos hc

/-- The step of the SETBRI in CMD carries the story on: T0 starts it, a write takes it one entry further, the last ends it. -/
theorem exec_setbri_keeps_rebuildOk {f : Word32} {s t : State} (hinv : Inv s) (h : RebuildOk s)
    (hdec : decode s.cmd = .ok (.setbri f)) (e : exec (.setbri f) s = .next t) : RebuildOk t := by
  obtain ⟨hc, ⟨j, hp, hj, rfl⟩ | ⟨j, hp, hj, rfl⟩ | rfl⟩ := exec_setbri_cases e
  · have hnew := newBelow_briWritten hinv hp hj (rebuildPrefix_iff.1 h.newBelow j hp)
    by_cases hlast : j + 1 = 2 * (briWritten j s).cfg.ttEntries
    · rw [briAdvance_of_last hlast]
      exact rebuildOk_of_none rfl fun _ => comparesBuilt_of_newBelow hlast (newBelow_congr rfl rfl rfl hnew)
    · rw [briAdvance_of_more hlast]
      have hmore : j + 1 < 2 * s.cfg.ttEntries := lt_of_le_of_ne hj hlast
      exact rebuildOk_of_bri rfl hmore hdec (newBelow_congr rfl rfl rfl hnew)
  · have hflight := h.inFlight
    unfold CommandInFlight at hflight
    rw [hp] at hflight
    exact absurd hflight.1 (by omega)
  · have hcfg : (briClamp f s).cfg = s.cfg := rfl
    have hcmd : (briClamp f s).cmd = s.cmd := rfl
    refine rebuildOk_of_bri rfl ?_ (hcmd ▸ hdec) (newBelow_zero _)
    rw [hcfg]
    exact Nat.mul_pos two_pos (ttEntries_pos hc)

/-- BEGIN leaves the whole table new and nothing in flight (R232). -/
theorem rebuildOk_beginEffect {s : State} (hinv : Inv s) : RebuildOk (beginEffect s) := by
  refine rebuildOk_of_none (by rw [beginEffect_frame]) fun _ => ?_
  have hb := hinv.brightness.1
  obtain ⟨-, -, hentries, -⟩ := beginEffect_spec hinv.config hinv.memory hb
  unfold ComparesBuilt
  rw [beginEffect_cfg, beginEffect_c0 hinv.config hb]
  exact fun j hj => (hentries j hj).2

/-- Any other command leaves the compares and C0 alone. -/
theorem exec_other_keeps_rebuildOk {i : Instr} {s t : State} (h : RebuildOk s) (hdec : decode s.cmd = .ok i)
    (hbri : ∀ f, i ≠ .setbri f) (hbegin : i ≠ .beginCmd) (e : exec i s = .next t) : RebuildOk t := by
  obtain ⟨hcfg, hcmd, -, -, hrun, htables, -⟩ := exec_frame e
  obtain ⟨hrun, -⟩ := hrun hbegin
  obtain ⟨-, htables⟩ := htables hbri
  obtain ⟨hc0, -, hmemC⟩ := htables hbegin
  have hno := h.no_bri_of_decode fun f hf => hbri f (Except.ok.inj (hdec.symm.trans hf))
  refine ⟨?inFlight, fun j hj => ?noRebuild, fun hr _ => ?built⟩
  case inFlight =>
    unfold CommandInFlight
    rcases exec_hostPos e with hp | ⟨rfl, hp | hp⟩ | ⟨f, j, rfl, -⟩
    · rw [hp]; trivial
    · rw [hp, hcmd]; exact hdec
    · rw [hp, hcmd]; exact hdec
    · exact absurd rfl (hbri f)
  case noRebuild =>
    obtain ⟨f, rfl⟩ := exec_setbri_of_hostPos e hj
    exact absurd rfl (hbri f)
  case built =>
    unfold ComparesBuilt
    simp only [entryAt_of_region (r := .compareTbl) hmemC hcfg, hcfg, hc0]
    exact h.built (hrun.symm.trans hr) hno

theorem exec_keeps_rebuildOk {i : Instr} {s t : State} (hinv : Inv s) (h : RebuildOk s) (hdec : decode s.cmd = .ok i)
    (e : exec i s = .next t) : RebuildOk t := by
  by_cases hbri : ∃ f, i = .setbri f
  · obtain ⟨f, rfl⟩ := hbri
    exact exec_setbri_keeps_rebuildOk hinv h hdec e
  · by_cases hbegin : i = .beginCmd
    · subst hbegin
      cases e.symm.trans (exec_beginCmd_of_ok hinv.config)
      exact rebuildOk_beginEffect hinv
    · exact exec_other_keeps_rebuildOk h hdec (fun f hf => hbri ⟨f, hf⟩) hbegin e

/-- Settles O32: the other agents leave what the story speaks of; the HOST's turn issues a word only with nothing in flight, and
then the command in CMD takes its step. -/
theorem rebuildIsNewBelowItsPosition : Obligations.RebuildIsNewBelowItsPosition := by
  intro s t a hinv h e
  by_cases ha : a = .host
  · subst ha
    obtain ⟨c, p, hkeep, hcase⟩ := hostTurn_cmd_cases e
    have h' : RebuildOk { s with cmd := c, prog := p } := rebuildOk_congr h rfl rfl rfl rfl hkeep fun hr => hr
    rcases hcase with rfl | ⟨rfl, err, herr⟩ | ⟨i, hi, hexec⟩
    · exact h'
    · have hno := h'.no_bri_of_decode fun f hf => by cases herr.symm.trans hf
      exact rebuildOk_of_none rfl fun hr => h'.built hr hno
    · exact exec_keeps_rebuildOk (hinv.withHost c p _ _) h' hi hexec
  · obtain ⟨hm, hc, -, h0, hp, hcmd, -, -, -, -, hr, -⟩ := turn_frame_of_not_host ha e
    exact rebuildOk_congr h hm hc h0 hp (fun _ => hcmd) hr

end Sys2Proof.Machine
end

section
/-! PROOFS. Runs of the two multi-step commands with other agents' turns between their steps: SHOW's safety (R156) and SETBRI's
completion (R187). -/

namespace Sys2Proof.Machine

/-! ### The HOST's turns of a multi-step command -/

/-- The HOST's turn that issues a command is the command's first step, at the state with its word in CMD (R13, R130). -/
theorem hostTurn_of_aboutToIssue {s : State} {i : Instr} (h : AboutToIssue s i) :
    ∃ w ws, decode w = .ok i ∧ turn .host s = exec i (issue w ws s) := by
  obtain ⟨hp, w, ws, hprog, hdec⟩ := h
  refine ⟨w, ws, hdec, ?_⟩
  simp only [turn, hostTurn, hp, hprog]
  exact runCommand_of_decode hdec

/-- A later one is the next step of the command in CMD (R39). -/
theorem hostTurn_of_decode {s : State} {i : Instr} (hp : s.hostPos ≠ .none) (hdec : decode s.cmd = .ok i) :
    turn .host s = exec i s :=
  (hostTurn_of_inFlight hp).trans (runCommand_of_decode hdec)

/-! ### SHOW under interleaving (R156, R73) -/

/-- With no swap pending, turns of CHAIN, REFRESH and ENV leave all that a SHOW in flight reads or has written. -/
theorem turns_of_not_host {as : List Agent} {s : State} (h : Inv s) (hswap : s.swapPending = false)
    (has : ∀ a ∈ as, a ≠ .host) :
    ∃ t, turns as s = .next t ∧ Inv t ∧ t.mem = s.mem ∧ t.cfg = s.cfg ∧ t.hostPos = s.hostPos ∧ t.cmd = s.cmd ∧
      t.encTarget = s.encTarget ∧ t.active = s.active ∧ t.swapPending = false := by
  induction as generalizing s with
  | nil => exact ⟨s, rfl, h, rfl, rfl, rfl, rfl, rfl, rfl, hswap⟩
  | cons a as ih =>
    have ha : a ≠ .host := has a List.mem_cons_self
    obtain ⟨u, hu⟩ := turn_defined h a
    obtain ⟨hm, hc, -, -, hp, hcmd, -, henc, -, -, -, hup, hact⟩ := turn_frame_of_not_host ha hu
    have huswap : u.swapPending = false :=
      eq_false_of_ne_true fun hup' => Bool.false_ne_true (hswap.symm.trans (hup hup'))
    obtain ⟨t, ht, hinv, hm', hc', hp', hcmd', henc', hact', hswap'⟩ :=
      ih (turn_keeps_inv h hu) huswap fun b hb => has b (List.mem_cons_of_mem a hb)
    exact ⟨t, turns_cons hu ht, hinv, hm'.trans hm, hc'.trans hc, hp'.trans hp, hcmd'.trans hcmd, henc'.trans henc,
      hact'.trans (hact hswap), hswap'⟩

/-- Settles O23: S1 retracts the swap, so nothing between the steps can flip ACTIVE; S2 then writes the buffer that is not active,
and no other turn writes a region. -/
theorem showIsSafeUnderInterleaving : Obligations.ShowIsSafeUnderInterleaving := by
  intro s as bs hinv habout hnot
  obtain ⟨w, ws, hdec, hfirst⟩ := hostTurn_of_aboutToIssue habout
  have hp0 : (issue w ws s).hostPos = .none := habout.1
  rw [exec_showCmd_at_none (s := issue w ws s) hinv.config hp0] at hfirst
  obtain ⟨s2, hrun1, hinv2, hm2, hc2, hp2, hcmd2, henc2, hact2, hswap2⟩ :=
    turns_of_not_host (turn_keeps_inv hinv hfirst) rfl fun a ha => hnot a (List.mem_append_left bs ha)
  have hdec2 : decode s2.cmd = .ok .showCmd := hcmd2.symm ▸ hdec
  have hshow1 : s2.hostPos = .show1 := hp2
  have hencode : exec .showCmd s2 = .next (showEncode s2) := exec_showCmd_at_show1 hinv2.config hshow1
  have hsecond : turn .host s2 = .next (showEncode s2) :=
    (hostTurn_of_decode (by rw [hshow1]; decide) hdec2).trans hencode
  obtain ⟨s4, hrun2, hinv4, hm4, -, hp4, hcmd4, -, hact4, -⟩ :=
    turns_of_not_host (turn_keeps_inv hinv2 hsecond) hswap2 fun a ha => hnot a (List.mem_append_right as ha)
  have hdec4 : decode s4.cmd = .ok .showCmd := hcmd4.symm ▸ hdec2
  have hshow2 : s4.hostPos = .show2 := hp4
  have hthird : turn .host s4 = .next (showCommit s4) :=
    (hostTurn_of_decode (by rw [hshow2]; decide) hdec4).trans (exec_showCmd_at_show2 hinv4.config hshow2)
  have hactive : s2.active = s.active := hact2
  have htarget : s2.encTarget = !s.active := henc2
  have hkept := activeBufferIsNeverWritten s2 _ .showCmd hinv2 hencode (by decide)
  have hgrid : (showEncode s2).mem.grid = s2.mem.grid := (exec_grid hencode).resolve_right (by simp)
  obtain ⟨-, hbytes⟩ := showEncode_spec hinv2.config hinv2.memory
  refine ⟨showCommit s4, turns_append_next (turns_append_next (turns_cons hfirst hrun1) (turns_cons hsecond hrun2))
    (turns_cons hthird rfl), rfl, rfl, rfl, rfl, hact4.trans hactive, ?activeBuffer, ?grid, fun off ho => ?encoded⟩
  case activeBuffer =>
    rw [hactive, hm2] at hkept
    exact (congrArg (·.get (Region.bs s.active)) hm4).trans hkept
  case grid => exact (congrArg Regions.grid hm4).trans (hgrid.trans (congrArg Regions.grid hm2))
  case encoded =>
    have hcfg : s2.cfg = s.cfg := hc2
    have hmem : s2.mem = s.mem := hm2
    have hlast : (showCommit s4).mem = (showEncode s2).mem := hm4
    rw [byteAt_congr hlast, hbytes, htarget, hcfg, hmem, if_pos ⟨rfl, ho⟩]

/-! ### SETBRI under interleaving (R186, R187) -/

/-- What no turn of a rebuild touches: the configuration and the four regions that are not the Timing Table's. -/
def OutsideTimingSame (s t : State) : Prop :=
  t.cfg = s.cfg ∧ t.mem.grid = s.mem.grid ∧ t.mem.bs0 = s.mem.bs0 ∧ t.mem.bs1 = s.mem.bs1 ∧ t.mem.addrTbl = s.mem.addrTbl

theorem OutsideTimingSame.trans {s t u : State} (h : OutsideTimingSame s t) (h' : OutsideTimingSame t u) :
    OutsideTimingSame s u := by
  obtain ⟨hc, hg, h0, h1, ha⟩ := h
  obtain ⟨hc', hg', h0', h1', ha'⟩ := h'
  exact ⟨hc'.trans hc, hg'.trans hg, h0'.trans h0, h1'.trans h1, ha'.trans ha⟩

theorem outsideTimingSame_of_mem {s t : State} (hm : t.mem = s.mem) (hc : t.cfg = s.cfg) : OutsideTimingSame s t := by
  refine ⟨hc, ?_, ?_, ?_, ?_⟩ <;> rw [hm]

theorem outsideTimingSame_of_setbri {f : Word32} {s t : State} (e : exec (.setbri f) s = .next t) : OutsideTimingSame s t := by
  obtain ⟨hc, -, -, -, hbegin, -, hshow, -⟩ := exec_frame e
  obtain ⟨-, -, -, -, -, -, -, haddr⟩ := hbegin (by simp)
  obtain ⟨-, -, hbs0, hbs1⟩ := hshow (by simp) (by simp)
  exact ⟨hc, (exec_grid e).resolve_right (by simp), hbs0, hbs1, haddr⟩

/-- A rebuild from s for the operand f stands after i of its writes: its values latched, the entries below i new, and the next
write due, or after the last the (0, 0) response given. -/
structure AfterWrites (s : State) (f : Word32) (i : Nat) (t : State) : Prop where
  inv : Inv t
  same : OutsideTimingSame s t
  bright : t.bright = clamp f
  c0 : t.c0 = BitVec.ofNat 32 (c0Of s.cfg (clamp f))
  newBelow : NewBelow t i
  due : i < 2 * s.cfg.ttEntries → t.hostPos = .bri i ∧ decode t.cmd = .ok (.setbri f)
  done : i = 2 * s.cfg.ttEntries → t.hostPos = .none ∧ t.respErr = 0#8 ∧ t.respVal = 0#32

/-- The HOST's turn that issues the SETBRI is its clamp step. -/
theorem afterWrites_zero {s t : State} {f : Word32} (hinv : Inv t) (hsame : OutsideTimingSame s t)
    (habout : AboutToIssue t (.setbri f)) : ∃ u, turn .host t = .next u ∧ AfterWrites s f 0 u := by
  obtain ⟨w, ws, hdec, hturn⟩ := hostTurn_of_aboutToIssue habout
  have hexec := exec_setbri_at_none (s := issue w ws t) hinv.config habout.1 f
  rw [hexec] at hturn
  have htt : 0 < s.cfg.ttEntries := by
    rw [← hsame.1]
    exact ttEntries_pos hinv.config
  refine ⟨_, hturn, ?_⟩
  exact {
    inv := turn_keeps_inv hinv hturn
    same := hsame.trans ((outsideTimingSame_of_mem (t := issue w ws t) rfl rfl).trans (outsideTimingSame_of_setbri hexec))
    bright := rfl
    c0 := by
      rw [briClamp_eq (s := issue w ws t) hinv.config, ← hsame.1]
      rfl
    newBelow := newBelow_zero _
    due := fun _ => ⟨rfl, hdec⟩
    done := fun hz => by omega }

/-- Each later HOST turn is the next write. -/
theorem AfterWrites.succ {s t : State} {f : Word32} {i : Nat} (h : AfterWrites s f i t) (hi : i < 2 * s.cfg.ttEntries) :
    ∃ u, turn .host t = .next u ∧ AfterWrites s f (i + 1) u := by
  obtain ⟨hp, hdec⟩ := h.due hi
  have hcfg : t.cfg = s.cfg := h.same.1
  have hi' : i < 2 * t.cfg.ttEntries := by rwa [hcfg]
  have hexec : exec (.setbri f) t = .next (briAdvance i (briWritten i t)) :=
    (exec_setbri_at_bri h.inv.config hp f).trans (briWrite_of_lt h.inv.config hi')
  have hturn := (hostTurn_of_decode (by rw [hp]; simp) hdec).trans hexec
  refine ⟨_, hturn, ?_⟩
  exact {
    inv := turn_keeps_inv h.inv hturn
    same := h.same.trans (outsideTimingSame_of_setbri hexec)
    bright := (briAdvance_bright i _).trans h.bright
    c0 := (briAdvance_c0 i _).trans h.c0
    newBelow := newBelow_congr (briAdvance_mem i _) (briAdvance_cfg i _) (briAdvance_c0 i _)
      (newBelow_briWritten h.inv hp hi' h.newBelow)
    due := fun hmore => by
      rw [briAdvance_of_more (by rw [briWritten_cfg, hcfg]; omega)]
      exact ⟨rfl, hdec⟩
    done := fun hlast => by
      rw [briAdvance_of_last (by rw [briWritten_cfg, hcfg]; exact hlast)]
      exact ⟨rfl, rfl, rfl⟩ }

/-- The other agents leave a rebuild where it stands. -/
theorem AfterWrites.of_not_host {s t u : State} {f : Word32} {i : Nat} {a : Agent} (h : AfterWrites s f i t) (ha : a ≠ .host)
    (hu : turn a t = .next u) : AfterWrites s f i u := by
  obtain ⟨hm, hc, hb, h0, hp, hcmd, -, -, herr, hval, -⟩ := turn_frame_of_not_host ha hu
  exact {
    inv := turn_keeps_inv h.inv hu
    same := h.same.trans (outsideTimingSame_of_mem hm hc)
    bright := hb.trans h.bright
    c0 := h0.trans h.c0
    newBelow := newBelow_congr hm hc h0 h.newBelow
    due := by rw [hp, hcmd]; exact h.due
    done := by rw [hp, herr, hval]; exact h.done }

/-- As many HOST turns as there are writes left complete the rebuild, wherever they fall. -/
theorem AfterWrites.complete {s t : State} {f : Word32} {i : Nat} {as : List Agent} (h : AfterWrites s f i t)
    (hcount : as.count .host + i = 2 * s.cfg.ttEntries) :
    ∃ u, turns as t = .next u ∧ AfterWrites s f (2 * s.cfg.ttEntries) u := by
  induction as generalizing t i with
  | nil =>
    have hi : i = 2 * s.cfg.ttEntries := by simpa using hcount
    exact ⟨t, rfl, hi ▸ h⟩
  | cons a as ih =>
    by_cases ha : a = .host
    · subst ha
      rw [List.count_cons_self] at hcount
      obtain ⟨v, hv, hnext⟩ := h.succ (by omega)
      obtain ⟨u, hu, hdone⟩ := ih hnext (by omega)
      exact ⟨u, turns_cons hv hu, hdone⟩
    · rw [List.count_cons_of_ne ha] at hcount
      obtain ⟨v, hv⟩ := turn_defined h.inv a
      obtain ⟨u, hu, hdone⟩ := ih (h.of_not_host ha hv) hcount
      exact ⟨u, turns_cons hv hu, hdone⟩

/-- And with the one that issues it before them, from a SETBRI that is next. -/
theorem turns_complete_setbri {s t : State} {f : Word32} {as : List Agent} (hinv : Inv t) (hsame : OutsideTimingSame s t)
    (habout : AboutToIssue t (.setbri f)) (hcount : as.count .host = 1 + 2 * s.cfg.ttEntries) :
    ∃ u, turns as t = .next u ∧ AfterWrites s f (2 * s.cfg.ttEntries) u := by
  induction as generalizing t with
  | nil =>
    rw [List.count_nil] at hcount
    omega
  | cons a as ih =>
    by_cases ha : a = .host
    · subst ha
      rw [List.count_cons_self] at hcount
      obtain ⟨v, hv, hstart⟩ := afterWrites_zero hinv hsame habout
      obtain ⟨u, hu, hdone⟩ := hstart.complete (as := as) (by omega)
      exact ⟨u, turns_cons hv hu, hdone⟩
    · rw [List.count_cons_of_ne ha] at hcount
      obtain ⟨v, hv⟩ := turn_defined hinv a
      obtain ⟨hm, hc, -, -, hp, -, hprog, -⟩ := turn_frame_of_not_host ha hv
      have habout' : AboutToIssue v (.setbri f) := by
        unfold AboutToIssue
        rw [hp, hprog]
        exact habout
      obtain ⟨u, hu, hdone⟩ :=
        ih (turn_keeps_inv hinv hv) (hsame.trans (outsideTimingSame_of_mem hm hc)) habout' hcount
      exact ⟨u, turns_cons hv hu, hdone⟩

/-- Settles O31: the run completes the rebuild, and with all its writes done every entry is new. -/
theorem setbriRebuildsUnderInterleaving : Obligations.SetbriRebuildsUnderInterleaving := by
  intro s f as hinv habout hcount
  obtain ⟨t, hrun, h⟩ := turns_complete_setbri hinv (outsideTimingSame_of_mem rfl rfl) habout hcount
  obtain ⟨hp, herr, hval⟩ := h.done rfl
  obtain ⟨hcfg, hregions⟩ := h.same
  obtain ⟨hper, hcmp⟩ := h.newBelow
  rw [hcfg, h.c0, c0_toNat_of_ofNat hinv.config (clamp_isBrightness f)] at hcmp
  rw [hcfg] at hper
  exact ⟨t, hrun, hp, herr, hval, h.bright, h.c0, fun i hi => ⟨hper i hi (by omega), hcmp i hi (by omega)⟩, hregions⟩

end Sys2Proof.Machine
end

section
/-! PROOFS. What the CHAIN alone emits (R212): a sub-frame, stream by stream, and a scan cycle, sub-frame by sub-frame. -/

namespace Sys2Proof.Machine

/-! ### Runs of the CHAIN that move its position, the outputs and the trace -/

theorem chainTurns_one {s t : State} (e : chainTurn s = .next t) : chainTurns 1 s = .next t :=
  turns_cons (a := .chain) e (turns_nil t)

theorem chainTurns_add {m n : Nat} {s t u : State} (h : chainTurns m s = .next t) (h' : chainTurns n t = .next u) :
    chainTurns (m + n) s = .next u := by
  rw [chainTurns, List.replicate_add]
  exact turns_append_next h h'

/-- n turns of the CHAIN take s to t, emit evs, leave the scan at (sf, ph, idx), and change nothing else but the output latches. -/
def ChainRun (n : Nat) (s t : State) (evs : List Event) (sf : Nat) (ph : Phase) (idx : Nat) : Prop :=
  chainTurns n s = .next t ∧ ∃ ap dp tp tc,
    t = { s with
      trace := s.trace ++ evs, sf := sf, phase := ph, idx := idx
      addrPort := ap, dataPort := dp, tmrPeriod := tp, tmrCompare := tc }

theorem chainRun_zero (s : State) : ChainRun 0 s s [] s.sf s.phase s.idx :=
  ⟨rfl, s.addrPort, s.dataPort, s.tmrPeriod, s.tmrCompare, by rw [List.append_nil]⟩

theorem chainRun_one {s t : State} {evs : List Event} {sf idx : Nat} {ph : Phase} {ap dp : Byte} {tp tc : Word32}
    (e : chainTurn s = .next t)
    (ht : t = { s with
      trace := s.trace ++ evs, sf := sf, phase := ph, idx := idx
      addrPort := ap, dataPort := dp, tmrPeriod := tp, tmrCompare := tc }) : ChainRun 1 s t evs sf ph idx :=
  ⟨chainTurns_one e, ap, dp, tp, tc, ht⟩

/-- Runs compose, their events one after another. -/
theorem ChainRun.trans {m n : Nat} {s t u : State} {evs evs' : List Event} {sf sf' idx idx' : Nat} {ph ph' : Phase}
    (h : ChainRun m s t evs sf ph idx) (h' : ChainRun n t u evs' sf' ph' idx') :
    ChainRun (m + n) s u (evs ++ evs') sf' ph' idx' := by
  obtain ⟨hrun, ap, dp, tp, tc, rfl⟩ := h
  obtain ⟨hrun', ap', dp', tp', tc', rfl⟩ := h'
  exact ⟨chainTurns_add hrun hrun', ap', dp', tp', tc', by rw [List.append_assoc]⟩

/-- A run after a single turn. -/
theorem ChainRun.cons {n : Nat} {s t u : State} {ev : Event} {evs : List Event} {sf sf' idx idx' : Nat} {ph ph' : Phase}
    (h : ChainRun 1 s t [ev] sf ph idx) (h' : ChainRun n t u evs sf' ph' idx') :
    ChainRun (n + 1) s u (ev :: evs) sf' ph' idx' :=
  Nat.add_comm 1 n ▸ h.trans h'

theorem turns_keep_inv {as : List Agent} {s t : State} (h : Inv s) (e : turns as s = .next t) : Inv t := by
  induction as generalizing s with
  | nil => cases e; exact h
  | cons a as ih =>
    obtain ⟨u, hu⟩ := turn_defined h a
    rw [turns, hu] at e
    exact ih (turn_keeps_inv h hu) e

theorem ChainRun.inv {n : Nat} {s t : State} {evs : List Event} {sf idx : Nat} {ph : Phase}
    (h : ChainRun n s t evs sf ph idx) (hinv : Inv s) : Inv t :=
  turns_keep_inv hinv h.1

/-- What a run of the CHAIN does not move. -/
theorem ChainRun.frame {n : Nat} {s t : State} {evs : List Event} {sf idx : Nat} {ph : Phase}
    (h : ChainRun n s t evs sf ph idx) :
    t.sf = sf ∧ t.phase = ph ∧ t.idx = idx ∧ t.runState = s.runState ∧ t.irqPending = s.irqPending ∧ t.mem = s.mem ∧
    t.cfg = s.cfg ∧ t.c0 = s.c0 ∧ t.active = s.active := by
  obtain ⟨-, ap, dp, tp, tc, rfl⟩ := h
  exact ⟨rfl, rfl, rfl, rfl, rfl, rfl, rfl, rfl, rfl⟩

/-! ### The four streams of a sub-frame (R202 to R205) -/

/-- The rest of the address stream: the row code over and over, up to the period. -/
theorem addrStream {n : Nat} {s : State} (hinv : Inv s) (hr : s.runState = .running) (hirq : s.irqPending = false)
    (hp : s.phase = .a) (hn : s.idx + (n + 1) = s.cfg.addrRepeat) :
    ∃ t, ChainRun (n + 1) s t (List.replicate (n + 1) (.addr (s.cfg.rowCode (s.cfg.rowOf s.sf)))) s.sf .p 0 := by
  induction n generalizing s with
  | zero =>
    obtain ⟨-, hturn⟩ := xaDrivesTheRowCode s hinv hr hp (hold_of_not_pending hirq)
    rw [if_pos hn, if_pos hn] at hturn
    exact ⟨_, chainRun_one hturn rfl⟩
  | succ n ih =>
    obtain ⟨-, hturn⟩ := xaDrivesTheRowCode s hinv hr hp (hold_of_not_pending hirq)
    have hmore : s.idx + 1 ≠ s.cfg.addrRepeat := by omega
    rw [if_neg hmore, if_neg hmore] at hturn
    have hone := chainRun_one hturn rfl
    obtain ⟨t, hrest⟩ := ih (hone.inv hinv) hr hirq rfl (by dsimp only; omega)
    exact ⟨t, hone.cons hrest⟩

/-- Period and compare value, C0's with no rebuild in flight. -/
theorem timingStream {s : State} (hinv : Inv s) (hcmp : ComparesBuilt s) (hr : s.runState = .running) (hp : s.phase = .p) :
    ∃ t, ChainRun 2 s t [.period (BitVec.ofNat 32 (s.cfg.tUnit * 2 ^ s.cfg.planeOf s.sf)),
      .compare (BitVec.ofNat 32 (s.c0.toNat * 2 ^ s.cfg.planeOf s.sf))] s.sf .d 0 := by
  obtain ⟨-, hturn⟩ := xpDrivesThePlanePeriod s hinv hr hp
  have hperiod := chainRun_one hturn rfl
  have hentry := hcmp s.sf (hinv.armed hr).scan.sf_lt_ttEntries
  have hcompare := chainTurn_of_compareEntry (hperiod.inv hinv) hr rfl hentry
  exact ⟨_, hperiod.trans (chainRun_one hcompare rfl)⟩

/-- The data bytes from position j on, count of them, of sub-frame sf (R212). -/
def dataEvents (s : State) (sf : Nat) (a : Bool) (j count : Nat) : List Event :=
  (List.range' j count).map fun k => .data (s.byteOr0 (Region.bs a) (sf * s.cfg.slice + k))

theorem dataEvents_succ (s : State) (sf : Nat) (a : Bool) (j count : Nat) :
    dataEvents s sf a j (count + 1) =
      .data (s.byteOr0 (Region.bs a) (sf * s.cfg.slice + j)) :: dataEvents s sf a (j + 1) count := by
  rw [dataEvents, List.range'_succ, List.map_cons, dataEvents]

theorem byteOr0_of_byteAt {s : State} {r : Region} {off : Nat} {v : Byte} (h : s.byteAt r off = some v) :
    s.byteOr0 r off = v := by
  rw [State.byteOr0, h, Option.getD_some]

/-- The rest of the data stream: the active buffer's bytes in order, up to the wait for the slot's end. -/
theorem dataStream {n : Nat} {s : State} (hinv : Inv s) (hr : s.runState = .running) (hp : s.phase = .d)
    (hn : s.idx + (n + 1) = s.cfg.slice) :
    ∃ t, ChainRun (n + 1) s t (dataEvents s s.sf s.active s.idx (n + 1)) s.sf .w s.cfg.slice := by
  induction n generalizing s with
  | zero =>
    obtain ⟨v, hv, hturn⟩ := xdDrivesTheActiveBuffer s hinv hr hp
    rw [if_pos hn, hn] at hturn
    rw [dataEvents_succ, byteOr0_of_byteAt hv]
    exact ⟨_, chainRun_one hturn rfl⟩
  | succ n ih =>
    obtain ⟨v, hv, hturn⟩ := xdDrivesTheActiveBuffer s hinv hr hp
    rw [if_neg (by omega)] at hturn
    have hone := chainRun_one hturn rfl
    obtain ⟨t, hrest⟩ := ih (hone.inv hinv) hr rfl (by dsimp only; omega)
    refine ⟨t, ?_⟩
    rw [dataEvents_succ, byteOr0_of_byteAt hv]
    exact hone.cons hrest

/-! ### A sub-frame (R212) -/

theorem subFrame_eq (s : State) (sf : Nat) (a : Bool) :
    subFrame s sf a = List.replicate s.cfg.addrRepeat (.addr (s.cfg.rowCode (s.cfg.rowOf sf)))
      ++ [.period (BitVec.ofNat 32 (s.cfg.tUnit * 2 ^ s.cfg.planeOf sf)),
          .compare (BitVec.ofNat 32 (s.c0.toNat * 2 ^ s.cfg.planeOf sf))]
      ++ dataEvents s sf a 0 s.cfg.slice := by
  rw [subFrame, dataEvents, List.range_eq_range']

/-- A sub-frame's events are decided by the regions, the configuration and C0. -/
theorem subFrame_congr {s t : State} (hm : t.mem = s.mem) (hc : t.cfg = s.cfg) (h0 : t.c0 = s.c0) (sf : Nat) (a : Bool) :
    subFrame t sf a = subFrame s sf a := by
  simp only [subFrame, State.byteOr0, byteAt_congr hm, hc, h0]

theorem comparesBuilt_congr {s t : State} (hm : t.mem = s.mem) (hc : t.cfg = s.cfg) (h0 : t.c0 = s.c0) (h : ComparesBuilt s) :
    ComparesBuilt t := by
  unfold ComparesBuilt
  simp only [entryAt_congr hm hc, hc, h0]
  exact h

/-- The four streams from the start of a sub-frame. -/
theorem subFrame_run {s : State} (hinv : Inv s) (hcmp : ComparesBuilt s) (hr : s.runState = .running)
    (hirq : s.irqPending = false) (hp : s.phase = .a) (hidx : s.idx = 0) :
    ∃ t, ChainRun (s.cfg.addrRepeat + 2 + s.cfg.slice) s t (subFrame s s.sf s.active) s.sf .w s.cfg.slice := by
  obtain ⟨m, hm⟩ := Nat.exists_eq_add_one_of_ne_zero (addrRepeat_pos hinv.config).ne'
  obtain ⟨n, hn⟩ := Nat.exists_eq_add_one_of_ne_zero (slice_pos hinv.config).ne'
  obtain ⟨t1, h1⟩ := addrStream (n := m) hinv hr hirq hp (by omega)
  obtain ⟨hsf1, hp1, -, hr1, -, hm1, hc1, h01, hact1⟩ := h1.frame
  obtain ⟨t2, h2⟩ := timingStream (h1.inv hinv) (comparesBuilt_congr hm1 hc1 h01 hcmp) (hr1.trans hr) hp1
  obtain ⟨hsf2, hp2, hidx2, hr2, -, hm2, hc2, h02, hact2⟩ := h2.frame
  obtain ⟨t3, h3⟩ := dataStream (n := n) (h2.inv (h1.inv hinv)) (hr2.trans (hr1.trans hr)) hp2 (by rw [hidx2, hc2, hc1]; omega)
  refine ⟨t3, ?_⟩
  have hdata : dataEvents t2 t2.sf t2.active t2.idx (n + 1) = dataEvents s s.sf s.active 0 s.cfg.slice := by
    simp only [dataEvents, State.byteOr0, byteAt_congr (hm2.trans hm1), hc2, hc1, hsf2, hsf1, hact2, hact1, hidx2, hn]
  rw [hdata, hsf2, hsf1, hc2, hc1] at h3
  rw [hc1, hsf1, h01] at h2
  rw [← hm] at h1
  rw [← hn] at h3
  rw [subFrame_eq]
  exact (h1.trans h2).trans h3

/-- Settles O41: the run of the four streams. -/
theorem subFrameTrace : Obligations.SubFrameTrace := by
  intro s hinv hcmp hr hirq hp hidx
  obtain ⟨t, hrun, ap, dp, tp, tc, rfl⟩ := subFrame_run hinv hcmp hr hirq hp hidx
  exact ⟨_, hrun, rfl⟩

/-! ### A scan cycle (R212) -/

/-- Turns of the CHAIN from the start of one sub-frame to the start of the next. -/
def subFrameTurns (c : Config) : Nat := c.addrRepeat + 2 + c.slice + 1

/-- A sub-frame that is not the last, and the advance to the next one (R206). -/
theorem subFrame_advance_run {s : State} (hinv : Inv s) (hcmp : ComparesBuilt s) (hr : s.runState = .running)
    (hirq : s.irqPending = false) (hp : s.phase = .a) (hidx : s.idx = 0) (hmore : s.sf + 1 ≠ s.cfg.nsf) :
    ∃ t, ChainRun (subFrameTurns s.cfg) s t (subFrame s s.sf s.active) (s.sf + 1) .a 0 := by
  obtain ⟨t, ht⟩ := subFrame_run hinv hcmp hr hirq hp hidx
  obtain ⟨hsf, hpw, -, hrt, -, -, hc, -⟩ := ht.frame
  have hadv : chainTurn t = .next { t with trace := t.trace ++ [], sf := s.sf + 1, phase := .a, idx := 0 } := by
    rw [chainTurn_of_phase_w (hrt.trans hr) hpw, stepADV_eq, hsf, hc, if_neg hmore, List.append_nil]
  have hrun := ht.trans (chainRun_one hadv rfl)
  simp only [List.append_nil] at hrun
  exact ⟨_, hrun⟩

/-- The first k sub-frames of a cycle. -/
theorem subFrames_run {s : State} (hinv : Inv s) (hcmp : ComparesBuilt s) (hr : s.runState = .running)
    (hirq : s.irqPending = false) (hsf : s.sf = 0) (hp : s.phase = .a) (hidx : s.idx = 0) {k : Nat} (hk : k < s.cfg.nsf) :
    ∃ t, ChainRun (k * subFrameTurns s.cfg) s t ((List.range k).flatMap fun sf => subFrame s sf s.active) k .a 0 := by
  induction k with
  | zero =>
    have hzero := chainRun_zero s
    rw [hsf, hp, hidx] at hzero
    exact ⟨s, by rw [Nat.zero_mul]; exact hzero⟩
  | succ k ih =>
    obtain ⟨t, ht⟩ := ih (by omega)
    obtain ⟨hsft, hpt, hidxt, hrt, hirqt, hm, hc, h0, hact⟩ := ht.frame
    obtain ⟨u, hu⟩ := subFrame_advance_run (ht.inv hinv) (comparesBuilt_congr hm hc h0 hcmp) (hrt.trans hr)
      (hirqt.trans hirq) hpt hidxt (by rw [hsft, hc]; omega)
    rw [subFrame_congr hm hc h0, hsft, hact, hc] at hu
    refine ⟨u, ?_⟩
    rw [Nat.succ_mul, List.range_succ, List.flatMap_append, List.flatMap_singleton]
    exact ht.trans hu

/-- Settles O42: all sub-frames but the last with their advances, then the last one, whose advance wraps and raises the
interrupt. -/
theorem scanCycleTrace : Obligations.ScanCycleTrace := by
  intro s hinv hcmp hr hirq hsf hp hidx
  obtain ⟨k, hk⟩ := Nat.exists_eq_add_one_of_ne_zero (nsf_pos hinv.config).ne'
  obtain ⟨t, ht⟩ := subFrames_run hinv hcmp hr hirq hsf hp hidx (k := k) (by omega)
  obtain ⟨hsft, hpt, hidxt, hrt, hirqt, hm, hc, h0, hact⟩ := ht.frame
  obtain ⟨u, hu⟩ := subFrame_run (ht.inv hinv) (comparesBuilt_congr hm hc h0 hcmp) (hrt.trans hr) (hirqt.trans hirq) hpt hidxt
  rw [subFrame_congr hm hc h0, hsft, hact, hc] at hu
  obtain ⟨hrun, ap, dp, tp, tc, rfl⟩ := ht.trans hu
  have hwrap : stepADV { s with
      trace := s.trace ++ (((List.range k).flatMap fun sf => subFrame s sf s.active) ++ subFrame s k s.active)
      sf := k, phase := .w, idx := s.cfg.slice, addrPort := ap, dataPort := dp, tmrPeriod := tp, tmrCompare := tc } =
      { s with
        trace := s.trace ++ scanCycle s s.active
        irqPending := true, addrPort := ap, dataPort := dp, tmrPeriod := tp, tmrCompare := tc } := by
    rw [stepADV_eq, if_pos hk.symm, scanCycle, hk, List.range_succ, List.flatMap_append, List.flatMap_singleton, hsf, hp, hidx,
      List.append_assoc s.trace]
  have hturns : s.cfg.nsf * (s.cfg.addrRepeat + 2 + s.cfg.slice + 1) =
      k * subFrameTurns s.cfg + (s.cfg.addrRepeat + 2 + s.cfg.slice) + 1 := by
    rw [hk, Nat.succ_mul]
    rfl
  have hall := chainTurns_add hrun (chainTurns_one (chainTurn_of_phase_w hr rfl))
  rw [hwrap, ← hturns] at hall
  exact ⟨_, hall, rfl⟩

end Sys2Proof.Machine
end
